-- ==== Sys2Proof/Word.lean ====
section
/-! DEFINITION. The word types of the SB640: image and frame words, bytes, and the numbers of its ports and dies. -/

namespace Sys2Proof

/-- A word of a map port frame or of a table image (chapter 10, preamble). -/
abbrev Word := BitVec 32

/-- A two-byte field of a maintenance frame, and the version of a logical record (R5). -/
abbrev Half := BitVec 16

/-- A byte of a maintenance frame, a tag, an epoch (R99, R173). -/
abbrev Byte := BitVec 8

/-- The number of a map port, 0 to 3 (section 2). -/
abbrev PortId := Fin 4

/-- The number of a relocation slot, one for each of the dies 0 to 7 (R79). -/
abbrev SlotId := Fin 8

end Sys2Proof
end

