-- ==== Sys2Proof/Config.lean ====
section
/-! DEFINITION. The fixed limits and code values of the SB640. The spec leaves no value of the part open, so this file
holds no free value; the marks of what the model itself chose stand in notes/assumptions. -/

namespace Sys2Proof.Config

/-- R45: the lease table has 64 entries. -/
abbrev leaseEntries : Nat := 64
/-- R126: the request FIFO of a port holds up to 8 frames. -/
abbrev fifoDepth : Nat := 8
/-- R127: the outgoing queue of a port holds up to 32 frames. -/
abbrev outgoingDepth : Nat := 32
/-- R124: the credits owed lie in 0 to 8, and a HELLO sets them to 8. -/
abbrev maxCredits : Nat := 8
/-- R118: the three error counters saturate at 65535. -/
abbrev counterMax : Nat := 65535
/-- R99: each port has four order slots. -/
abbrev orderSlots : Nat := 4
/-- R99, R104: at most 3 of a port's issued orders are ERASE orders. -/
abbrev maxErases : Nat := 3
/-- R76: a rescue queue holds at most 16 entries. -/
abbrev rescueDepth : Nat := 16
/-- R65, R89: a write and a relocation hold at most three destinations. -/
abbrev maxAttempts : Nat := 3
/-- R168: the shadow table holds at most 128 entries. -/
abbrev shadowEntries : Nat := 128
/-- R136: the factory bad list holds at most 256 entries. -/
abbrev badListEntries : Nat := 256
/-- R137: MARK_BAD carries 1 to 16 names. -/
abbrev maxNames : Nat := 16
/-- R156, R167: LOAD_DATA and SAVE_DATA move 1 to 64 words. -/
abbrev maxChunk : Nat := 64
/-- R56: a read run has 1 to 16 logical blocks. -/
abbrev maxRun : Nat := 16
/-- R55: GROUP_SIZE is at most 16. -/
abbrev maxGroup : Nat := 16
/-- R19: classes are capped at 62. -/
abbrev maxClass : Nat := 62
/-- R9: an erase count saturates at 16,777,215. -/
abbrev maxEraseCount : Nat := 16777215
/-- R20: a histogram has 64 counts, of which index 63 of the wear histogram counts the FIXED blocks. -/
abbrev histogramSize : Nat := 64
/-- R139: the CLASS_WIDTH that FORMAT takes for an argument of 0. -/
abbrev defaultClassWidth : Nat := 2048
/-- R1, R139: the largest DIE_COUNT. -/
abbrev maxDies : Nat := 8
/-- R139: the largest BLOCKS_PER_DIE. -/
abbrev maxBlocks : Nat := 1024
/-- R139: the largest LOGICAL_COUNT. -/
abbrev maxLogical : Nat := 8192
/-- R152: the words of an image header. -/
abbrev headerWords : Nat := 16
/-- Section 10.3: the magic value of word 0 of an image. -/
def magic : Word := 0x6B5A0640#32
/-- R152, R157: the format version of an image. -/
def imageVersion : Word := 1#32
/-- Section 10.2: the part identifier IDENTIFY returns. -/
def identifier : Word := 0x53420640#32
/-- R177: the revision of the part. -/
def revision : Byte := 1#8
/-- Section 10.2: the byte the part drives during the turnaround and after the response. -/
def fillByte : Byte := 0xFF#8
/-- Section 10.2: the turnaround bytes the processor clocks between command and response. -/
abbrev turnaroundBytes : Nat := 4
/-- Section 10.1.4: the lease id field of an answer that names no lease. -/
def noLease : Byte := 0xFF#8
/-- R173, section 10.2: the largest payload a length field of 2 bytes can name. -/
abbrev maxPayload : Nat := 65535

end Sys2Proof.Config
end

