-- ==== Sys2Proof/Syntax.lean ====
section
/-! DEFINITION. The commands of the SB640: one constructor for each row of spec/opcode_table.json, with its operands. -/

namespace Sys2Proof

/-- A frame as a map port's receiver takes it from the link (section 6.2): a header word, the payload words that were
received, and a check word. -/
structure Frame where
  header : Word
  payload : List Word
  check : Word
deriving DecidableEq, Repr

/-- A command of the block. Map port requests stand in the request FIFO as frames (R126), so a request's row names only the
port whose head request the intake arbiter takes (R130): its arguments are the frame's. Maintenance commands carry the
fields of their frames (section 10.2). -/
inductive Instr where
  /-- R118: a whole frame arrives on port `p`. -/
  | frameArrival (p : PortId) (f : Frame)
  /-- R119, R120: a HELLO frame of this tag, its check good, arrives on port `p`. -/
  | hello (p : PortId) (tag : Byte)
  /-- R55: the intake arbiter takes a SET_GROUP from port `p`. -/
  | setGroup (p : PortId)
  /-- R56, R57: the intake arbiter takes an OPEN_READ from port `p`. -/
  | openRead (p : PortId)
  /-- R60, R62: the intake arbiter takes an OPEN_WRITE from port `p`. -/
  | openWrite (p : PortId)
  /-- R63, R64, R65: the intake arbiter takes a COMMIT from port `p`. -/
  | commit (p : PortId)
  /-- R66: the intake arbiter takes a RELEASE from port `p`. -/
  | release (p : PortId)
  /-- R67: the intake arbiter takes a RENEW from port `p`. -/
  | renew (p : PortId)
  /-- R68, R69: the intake arbiter takes a DISCARD from port `p`. -/
  | discard (p : PortId)
  /-- R73, R74: the intake arbiter takes a REPORT_WEAK from port `p`. -/
  | reportWeak (p : PortId)
  /-- R107, R108: the intake arbiter takes an ORDER_DONE from port `p`. -/
  | orderDone (p : PortId)
  /-- R188: the intake arbiter takes from port `p` a frame whose form is not accepted. -/
  | unknownRequest (p : PortId)
  /-- R124: the head frame of port `p`'s outgoing queue leaves. -/
  | frameLeave (p : PortId)
  /-- R121: the receiver of port `p` reports the loss of the link. -/
  | linkLoss (p : PortId)
  /-- R53: the timer of the lease with this id reaches 0. -/
  | leaseExpiry (id : Fin 64)
  /-- R110: the timer of the order of this tag, issued on port `p`, reaches 0. -/
  | orderTimeout (p : PortId) (tag : Byte)
  /-- R82: the Relocation Engine evaluates die `d`. -/
  | relocationEvaluation (d : SlotId)
  /-- R103: the Order Dispatcher considers port `p`. -/
  | dispatchConsideration (p : PortId)
  /-- R144: the Control Unit makes the drain check. -/
  | drainCheck
  /-- R140, R142: a running FORMAT completes. -/
  | formatCompletion
  /-- R160, R162: a LOAD_END in CHECKING completes. -/
  | loadCompletion
  /-- R150: the RESET line is asserted and released. -/
  | deviceReset
  /-- R173: the SPI select line is asserted. -/
  | spiSelectAssert
  /-- R173: the SPI select line is released. -/
  | spiSelectRelease
  /-- R189: a command frame whose check passes and whose opcode, length or form-selecting code suits no command. -/
  | unknownCommand (opcode : Byte) (payload : List Byte)
  /-- R177. -/
  | identify
  /-- R183. -/
  | getStatus
  /-- R181: the causes to clear, as a cause set byte. -/
  | ackAttn (causes : Byte)
  /-- R178: parameter code, index and value. -/
  | setParam (code index : Byte) (value : Word)
  /-- R179: parameter code and index. -/
  | getParam (code index : Byte)
  /-- R184: the logical block. -/
  | translate (l : Half)
  /-- R185: die and block index. -/
  | readBlock (die : Byte) (block : Half)
  /-- R186: the die. -/
  | readSpares (die : Byte)
  /-- R187: die and histogram selector. -/
  | readHistogram (die selector : Byte)
  /-- R134: the port number. -/
  | portInfo (port : Byte)
  /-- R133: PORT_CONTROL with action ENABLE. -/
  | portEnable (port : Byte)
  /-- R133: PORT_CONTROL with action DISABLE. -/
  | portDisable (port : Byte)
  /-- R137: the block names, each a die and a block. -/
  | markBad (names : List (Byte × Half))
  /-- R138. -/
  | clearBadList
  /-- R139: DIE_COUNT, BLOCKS_PER_DIE, LOGICAL_COUNT, CLASS_WIDTH and MIN_SPARES. -/
  | format (dieCount : Byte) (blocksPerDie logicalCount classWidth : Half) (minSpares : Byte)
  /-- R143. -/
  | goOnline
  /-- R145: GO_OFFLINE with FORCE 00. -/
  | goOffline
  /-- R146: GO_OFFLINE with FORCE 01. -/
  | goOfflineForce
  /-- R148. -/
  | mapReset
  /-- R155. -/
  | loadBegin
  /-- R156: the image words carried. -/
  | loadData (words : List Word)
  /-- R160. -/
  | loadEnd
  /-- R166. -/
  | saveBegin
  /-- R167: the number of words asked for. -/
  | saveData (count : Byte)
  /-- R170. -/
  | saveAbort
  /-- R42, R43: die and block index. -/
  | retireBlock (die : Byte) (block : Half)
  /-- R173: the last turnaround byte has been clocked. -/
  | turnaroundEnd
  /-- R174: a command frame whose byte sum is not 0 modulo 256. -/
  | badFrame (opcode : Byte) (payload : List Byte) (check : Byte)
deriving DecidableEq, Repr

end Sys2Proof
end

