-- ==== Sys2Proof/Machine/Frames.lean ====
section
/-! DEFINITION. The form of frames (chapter 10): the fields of a map port request frame, the frame check, the kinds of
request, and the framing of maintenance commands (opcodes, lengths, check byte). -/

namespace Sys2Proof

/-! ### Map port frames -/

/-- R118: the 32-bit sum of words, modulo 2 to the power 32. -/
def wordSum (ws : List Word) : Word := ws.foldr (· + ·) 0#32

/-- 10.1.1: the check word of a frame, the two's complement of the sum of the words before it. -/
def checkWord (ws : List Word) : Word := -wordSum ws

/-- R118: a frame passes its check when the sum of all its words, the check word included, is 0. -/
def framePasses (f : Frame) : Bool := wordSum (f.header :: f.payload ++ [f.check]) == 0#32

/-- 10.1.1: header bits 0 to 7. -/
def Frame.kind (f : Frame) : Byte := f.header.extractLsb' 0 8
/-- 10.1.1: header bits 8 to 12, the number of payload words. -/
def Frame.length (f : Frame) : Nat := (f.header.extractLsb' 8 5).toNat
/-- 10.1.1: header bits 16 to 23. -/
def Frame.tag (f : Frame) : Byte := f.header.extractLsb' 16 8

/-- 10.1.3: the one payload word of a request (0 where there is none; no accepted request is without it). -/
def Frame.word (f : Frame) : Word := f.payload.headD 0#32
/-- 10.1.3: payload bits 0 to 7. -/
def Frame.byte0 (f : Frame) : Byte := f.word.extractLsb' 0 8
/-- 10.1.3: payload bits 8 to 15. -/
def Frame.byte1 (f : Frame) : Byte := f.word.extractLsb' 8 8
/-- 10.1.3: payload bits 16 to 23. -/
def Frame.byte2 (f : Frame) : Byte := f.word.extractLsb' 16 8
/-- 10.1.3: payload bits 0 to 15, the logical block of OPEN_READ, OPEN_WRITE and DISCARD. -/
def Frame.low (f : Frame) : Half := f.word.extractLsb' 0 16
/-- 10.1.3: payload bits 16 to 31, the block index of REPORT_WEAK. -/
def Frame.high (f : Frame) : Half := f.word.extractLsb' 16 16

/-- 10.1.2: the kind code of HELLO. -/
def helloKind : Byte := 0x01#8

/-- 10.1.2: the nine requests that enter a request FIFO in accepted form. -/
inductive RequestKind where
  | setGroup | openRead | openWrite | commit | release | renew | discard | reportWeak | orderDone
deriving DecidableEq, Repr

/-- 10.1.2: the kind code of a request. -/
def RequestKind.code : RequestKind → Byte
  | .setGroup => 0x02#8
  | .openRead => 0x03#8
  | .openWrite => 0x04#8
  | .commit => 0x05#8
  | .release => 0x06#8
  | .renew => 0x07#8
  | .discard => 0x08#8
  | .reportWeak => 0x09#8
  | .orderDone => 0x0A#8

/-- 10.1.2: the request a kind code stands for, if it is one of 02 to 0A. -/
def RequestKind.ofCode (k : Byte) : Option RequestKind :=
  match k.toNat with
  | 0x02 => some .setGroup
  | 0x03 => some .openRead
  | 0x04 => some .openWrite
  | 0x05 => some .commit
  | 0x06 => some .release
  | 0x07 => some .renew
  | 0x08 => some .discard
  | 0x09 => some .reportWeak
  | 0x0A => some .orderDone
  | _ => none

/-- R188: the request a FIFO frame makes when its form is accepted: a request kind code, a length field equal to the payload
words received, and the one payload word that 10.1.2 gives every such kind. `none` is a form that is refused. -/
def Frame.request (f : Frame) : Option RequestKind :=
  match RequestKind.ofCode f.kind with
  | none => none
  | some k => if f.length = f.payload.length ∧ f.payload.length = 1 then some k else none

/-- 10.1.1: the header of a frame of this kind, payload length, tag and credit field. -/
def frameHeader (kind : Byte) (length : Nat) (tag : Byte) (credit : Nat) : Word :=
  0#4 ++ BitVec.ofNat 4 credit ++ tag ++ 0#3 ++ BitVec.ofNat 5 length ++ kind

/-- A frame of this kind, tag and payload with its length field, a credit field of 0 and a good check word. -/
def mkFrame (kind tag : Byte) (payload : List Word) : Frame :=
  let h := frameHeader kind payload.length tag 0
  ⟨h, payload, checkWord (h :: payload)⟩

/-! ### Maintenance frames -/

/-- R174: the sum of bytes modulo 256. -/
def byteSum (bs : List Byte) : Byte := bs.foldr (· + ·) 0#8

/-- Section 10.2: the check byte, the two's complement of the byte sum of the bytes before it. -/
def checkByte (bs : List Byte) : Byte := -byteSum bs

/-- Chapter 10: a two-byte field, least significant byte first. -/
def le16 (h : Half) : List Byte := [h.extractLsb' 0 8, h.extractLsb' 8 8]

/-- Chapter 10: a four-byte field, least significant byte first. -/
def le32 (w : Word) : List Byte := [w.extractLsb' 0 8, w.extractLsb' 8 8, w.extractLsb' 16 8, w.extractLsb' 24 8]

/-- A number as a two-byte field. -/
def le16n (n : Nat) : List Byte := le16 (BitVec.ofNat 16 n)

/-- A number as a four-byte field. -/
def le32n (n : Nat) : List Byte := le32 (BitVec.ofNat 32 n)

/-- A number as a one-byte field. -/
def byte (n : Nat) : Byte := BitVec.ofNat 8 n

/-- A yes or no as a byte: 00 or 01. -/
def flag (b : Bool) : Byte := if b then 1#8 else 0#8

/-- Chapter 10: a two-byte field read back. -/
def half (lo hi : Byte) : Half := hi ++ lo

/-- Chapter 10: a four-byte field read back. -/
def word (b0 b1 b2 b3 : Byte) : Word := b3 ++ b2 ++ b1 ++ b0

/-- R173, section 10.2: the bytes of a frame before its check byte: first byte (opcode or status), length, payload. -/
def frameBody (first : Byte) (payload : List Byte) : List Byte := first :: le16n payload.length ++ payload

/-- R174: a command frame passes its check when the sum of all its bytes is 0 modulo 256. -/
def commandPasses (opcode : Byte) (payload : List Byte) (check : Byte) : Bool :=
  byteSum (frameBody opcode payload ++ [check]) == 0#8

/-- R189: whether the opcode is in the table of 10.2 and the payload length suits it. -/
def suits (opcode : Byte) (n : Nat) : Bool :=
  match opcode.toNat with
  | 0x01 => n == 0
  | 0x02 => n == 0
  | 0x03 => n == 1
  | 0x04 => n == 6
  | 0x05 => n == 2
  | 0x06 => n == 2
  | 0x07 => n == 3
  | 0x08 => n == 1
  | 0x09 => n == 2
  | 0x0A => n == 1
  | 0x10 => n % 3 == 0
  | 0x11 => n == 0
  | 0x12 => n == 8
  | 0x13 => n == 0
  | 0x14 => n == 1
  | 0x15 => n == 0
  | 0x18 => n == 0
  | 0x19 => n % 4 == 0
  | 0x1A => n == 0
  | 0x1B => n == 0
  | 0x1C => n == 1
  | 0x1D => n == 0
  | 0x20 => n == 3
  | 0x21 => n == 2
  | _ => false

/-- Section 10.2: whether the code that selects a form of the command is one listed: the FORCE byte of GO_OFFLINE and the action
byte of PORT_CONTROL are 00 or 01. R189 leaves another value to the command's own rule. -/
def formListed (opcode : Byte) (payload : List Byte) : Bool :=
  match opcode.toNat with
  | 0x14 => (payload.getD 0 0#8).toNat < 2
  | 0x21 => (payload.getD 1 0#8).toNat < 2
  | _ => true

end Sys2Proof
end

