-- ==== Sys2Proof/WellFormed.lean ====
section
/-! DEFINITION. Which commands are well formed: those whose operands a row of the table can carry. -/

namespace Sys2Proof


/-- A command is well formed when its operands are ones its row can carry: a map port frame has 0 to 18 payload words
(section 6.2); a maintenance payload fits the two-byte length field (section 10.2); a damaged frame is one whose bytes do
not sum to 0 (R174); an unknown command suits no row of the table (R189). -/
def Instr.wellFormed : Instr → Bool
  | .frameArrival _ f => f.payload.length ≤ 18
  | .markBad names => names.length * 3 ≤ Config.maxPayload
  | .loadData words => words.length * 4 ≤ Config.maxPayload
  | .unknownCommand opcode payload =>
    payload.length ≤ Config.maxPayload && !(suits opcode payload.length && formListed opcode payload)
  | .badFrame opcode payload check => payload.length ≤ Config.maxPayload && !commandPasses opcode payload check
  | .hello _ _ | .setGroup _ | .openRead _ | .openWrite _ | .commit _ | .release _ | .renew _ | .discard _ | .reportWeak _
  | .orderDone _ | .unknownRequest _ | .frameLeave _ | .linkLoss _ | .leaseExpiry _ | .orderTimeout _ _
  | .relocationEvaluation _ | .dispatchConsideration _ | .drainCheck | .formatCompletion | .loadCompletion | .deviceReset
  | .spiSelectAssert | .spiSelectRelease | .identify | .getStatus | .ackAttn _ | .setParam _ _ _ | .getParam _ _
  | .translate _ | .readBlock _ _ | .readSpares _ | .readHistogram _ _ | .portInfo _ | .portEnable _ | .portDisable _
  | .clearBadList | .format _ _ _ _ _ | .goOnline | .goOffline | .goOfflineForce | .mapReset | .loadBegin | .loadEnd
  | .saveBegin | .saveData _ | .saveAbort | .retireBlock _ _ | .turnaroundEnd => true

end Sys2Proof
end

