-- ==== Sys2Proof/Decode.lean ====
section
/-! DEFINITION. Reading commands from bits. No row of spec/opcode_table.json gives bits, so `decodeTableWord` answers none.
Beside it stand the two readings chapter 10 does give: a maintenance frame's bytes as a command (R174, R189) and the
encoding of a command as a frame. -/

namespace Sys2Proof


/-- The command a word spells by the table's bits: no row of the table has any. -/
def decodeTableWord (_nbits _w : Nat) : Option Instr := none

/-- R137, section 10.2: the names of a MARK_BAD payload, three bytes each. -/
def namesOfBytes : List Byte → List (Byte × Half)
  | d :: lo :: hi :: rest => (d, half lo hi) :: namesOfBytes rest
  | _ => []

/-- R156, section 10.2: the words of a LOAD_DATA payload, four bytes each. -/
def wordsOfBytes : List Byte → List Word
  | b0 :: b1 :: b2 :: b3 :: rest => word b0 b1 b2 b3 :: wordsOfBytes rest
  | _ => []

/-- Section 10.2: the command of a frame whose check, opcode and length are good, by its opcode. A form-selecting code that is
not listed makes an `unknownCommand`, whose meaning refuses it as the command's own rule does. -/
def commandOfOpcode (opcode : Byte) (payload : List Byte) : Instr :=
  match opcode.toNat, payload with
  | 0x01, _ => .identify
  | 0x02, _ => .getStatus
  | 0x03, [c] => .ackAttn c
  | 0x04, [c, i, v0, v1, v2, v3] => .setParam c i (word v0 v1 v2 v3)
  | 0x05, [c, i] => .getParam c i
  | 0x06, [l0, l1] => .translate (half l0 l1)
  | 0x07, [d, b0, b1] => .readBlock d (half b0 b1)
  | 0x08, [d] => .readSpares d
  | 0x09, [d, sel] => .readHistogram d sel
  | 0x0A, [p] => .portInfo p
  | 0x10, ns => .markBad (namesOfBytes ns)
  | 0x11, _ => .clearBadList
  | 0x12, [dc, b0, b1, l0, l1, c0, c1, m] => .format dc (half b0 b1) (half l0 l1) (half c0 c1) m
  | 0x13, _ => .goOnline
  | 0x14, [f] => if f = 0#8 then .goOffline else if f = 1#8 then .goOfflineForce else .unknownCommand opcode [f]
  | 0x15, _ => .mapReset
  | 0x18, _ => .loadBegin
  | 0x19, ws => .loadData (wordsOfBytes ws)
  | 0x1A, _ => .loadEnd
  | 0x1B, _ => .saveBegin
  | 0x1C, [n] => .saveData n
  | 0x1D, _ => .saveAbort
  | 0x20, [d, b0, b1] => .retireBlock d (half b0 b1)
  | 0x21, [p, a] => if a = 0#8 then .portDisable p else if a = 1#8 then .portEnable p else .unknownCommand opcode [p, a]
  | _, _ => .unknownCommand opcode payload

/-- R174, R189: the row of the table that a command frame of these bytes makes: first its check, then its opcode and length. -/
def commandOfFrame (opcode : Byte) (payload : List Byte) (check : Byte) : Instr :=
  if !commandPasses opcode payload check then .badFrame opcode payload check
  else if !suits opcode payload.length then .unknownCommand opcode payload
  else commandOfOpcode opcode payload

/-- Section 10.2: the opcode and payload of a maintenance command; `none` for the rows that are no command of 10.2's table. -/
def commandFrame : Instr → Option (Byte × List Byte)
  | .identify => some (0x01#8, [])
  | .getStatus => some (0x02#8, [])
  | .ackAttn c => some (0x03#8, [c])
  | .setParam c i v => some (0x04#8, c :: i :: le32 v)
  | .getParam c i => some (0x05#8, [c, i])
  | .translate l => some (0x06#8, le16 l)
  | .readBlock d b => some (0x07#8, d :: le16 b)
  | .readSpares d => some (0x08#8, [d])
  | .readHistogram d sel => some (0x09#8, [d, sel])
  | .portInfo p => some (0x0A#8, [p])
  | .markBad names => some (0x10#8, names.flatMap fun n => n.1 :: le16 n.2)
  | .clearBadList => some (0x11#8, [])
  | .format dc b l c m => some (0x12#8, dc :: le16 b ++ le16 l ++ le16 c ++ [m])
  | .goOnline => some (0x13#8, [])
  | .goOffline => some (0x14#8, [0#8])
  | .goOfflineForce => some (0x14#8, [1#8])
  | .mapReset => some (0x15#8, [])
  | .loadBegin => some (0x18#8, [])
  | .loadData ws => some (0x19#8, ws.flatMap le32)
  | .loadEnd => some (0x1A#8, [])
  | .saveBegin => some (0x1B#8, [])
  | .saveData n => some (0x1C#8, [n])
  | .saveAbort => some (0x1D#8, [])
  | .retireBlock d b => some (0x20#8, d :: le16 b)
  | .portDisable p => some (0x21#8, [p, 0#8])
  | .portEnable p => some (0x21#8, [p, 1#8])
  | .unknownCommand opcode payload => some (opcode, payload)
  | .frameArrival _ _ | .hello _ _ | .setGroup _ | .openRead _ | .openWrite _ | .commit _ | .release _ | .renew _ | .discard _
  | .reportWeak _ | .orderDone _ | .unknownRequest _ | .frameLeave _ | .linkLoss _ | .leaseExpiry _ | .orderTimeout _ _
  | .relocationEvaluation _ | .dispatchConsideration _ | .drainCheck | .formatCompletion | .loadCompletion | .deviceReset
  | .spiSelectAssert | .spiSelectRelease | .turnaroundEnd | .badFrame _ _ _ => none

end Sys2Proof
end

