-- ==== Sys2Proof/Machine/State.lean ====
section
/-! DEFINITION. The state of the SB640: every record, list, queue, count, mode and parameter the spec gives the part, the commands
that wait, the outcomes of a command other than a next state, and the state after device reset. -/

namespace Sys2Proof.Machine

/-! ### Names of states, marks, causes and kinds -/

/-- R135: the six table states. -/
inductive TableState where
  | blank | formatting | loading | offline | online | draining
deriving DecidableEq, Repr

/-- Chapter 7: the kind of the drain under way. -/
inductive DrainKind where
  | none | plain | forced
deriving DecidableEq, Repr

/-- R3: the risk of a logical record. -/
inductive Risk where
  | none | unreadable
deriving DecidableEq, Repr

/-- R8: the state of a physical record. -/
inductive PhysState where
  | fixed | spare | allocated | mapped | stale | erasing | retired
deriving DecidableEq, Repr

/-- R11: the weak mark of a block. -/
inductive WeakMark where
  | port | host
deriving DecidableEq, Repr

/-- R12: why a block retired. -/
inductive RetireCause where
  | factory | eraseFail | programFail | copyFail | weak | host
deriving DecidableEq, Repr

/-- R39: the health of a die. -/
inductive Health where
  | good | low | exhausted
deriving DecidableEq, Repr

/-- R79: the two kinds of relocation. -/
inductive RelocationKind where
  | level | rescue
deriving DecidableEq, Repr

/-- R116: the three link states. -/
inductive LinkState where
  | disabled | down | up
deriving DecidableEq, Repr

/-- R116: the cause of a port's last departure from UP. -/
inductive LossCause where
  | none | linkLoss | orderTimeout | hello | disabled
deriving DecidableEq, Repr

/-- R154: the load phase. -/
inductive LoadPhase where
  | idle | receiving | checking
deriving DecidableEq, Repr

/-- R165: the save status. -/
inductive SaveStatus where
  | none | running | done | shadowFull | aborted
deriving DecidableEq, Repr

/-- R173: the phase of the maintenance transaction. -/
inductive Phase where
  | idle | command | turnaround | response
deriving DecidableEq, Repr

/-- R180: the five attention causes. -/
inductive Cause where
  | dieHealth | portFault | dataAtRisk | opDone | drained
deriving DecidableEq, Repr

/-- R180: a set of attention causes; bit n stands for the cause of that bit in the cause sets of 10.2. -/
abbrev CauseSet := BitVec 5

/-- R161: the fault codes of a load. -/
inductive LoadFault where
  | magic | version | geometry | range | stateCode | duplicate | length | short | check | orphan
deriving DecidableEq, Repr

/-! ### Map Engine -/

/-- Section 1.1: the parameters fixed for the life of a table. -/
structure Geometry where
  dieCount : Nat
  blocksPerDie : Nat
  logicalCount : Nat
  classWidth : Nat
deriving DecidableEq, Repr

/-- R3, R22: the recorded fields of a logical record. The record is MAPPED when `block` is present and UNMAPPED when it is absent. -/
structure LogicalFields where
  block : Option Nat
  version : Half
  risk : Risk
deriving DecidableEq, Repr

/-- R3, R7: a logical record: the recorded fields and the two links. The relocation link names the slot of the home die, so only its
presence is held. -/
structure LogicalRecord extends LogicalFields where
  writeLease : Option Nat
  relocating : Bool
deriving DecidableEq, Repr

/-- R8, R22: the recorded fields of a physical record. -/
structure PhysFields where
  state : PhysState
  eraseCount : Nat
  weak : Option WeakMark
  cause : Option RetireCause
deriving DecidableEq, Repr

/-- R8: a physical record. Its class is computed from the erase count (R19), so it is not held. -/
structure PhysRecord extends PhysFields where
  owner : Option Nat
  readers : Nat
deriving DecidableEq, Repr

/-- What is kept for one die: its physical records and histograms (R8, R20), the Spare Manager's six items (chapter 2) and the die's
rescue queue (R76). -/
structure Die where
  blocks : List PhysRecord
  wear : List Nat
  mapped : List Nat
  spares : List Nat
  eraseQueue : List Nat
  retired : Nat
  reserve : Int
  initialReserve : Int
  health : Health
  rescue : List Nat
deriving DecidableEq, Repr

/-- R1: a table: the geometry, the block map (one logical record for each L) and what is kept for each die. -/
structure Table where
  geometry : Geometry
  logical : List LogicalRecord
  dies : List Die
deriving DecidableEq, Repr

/-! ### Lease Unit -/

/-- R45: an entry of a read lease: a logical block, the block current at the grant, and the version at the grant. -/
structure ReadEntry where
  logical : Nat
  die : Nat
  block : Nat
  version : Half
deriving DecidableEq, Repr

/-- R45: the fields that depend on a lease's kind. -/
inductive LeaseBody where
  | read (entries : List ReadEntry)
  | write (logical destination attempt : Nat)
deriving DecidableEq, Repr

/-- R45: a lease record. `expiry` is the remaining milliseconds, absent for a lease without a timer. -/
structure Lease where
  port : PortId
  tag : Byte
  body : LeaseBody
  expiry : Option Nat
deriving DecidableEq, Repr

/-! ### Relocation Engine -/

/-- R79: the state of a relocation, with the tag and epoch of its COPY order in COPYING and CANCELLED. -/
inductive RelocationState where
  | waitSlot
  | copying (tag epoch : Byte)
  | cancelled (tag epoch : Byte)
deriving DecidableEq, Repr

/-- R79: a relocation record; the slot it stands in is its die. -/
structure Relocation where
  kind : RelocationKind
  logical : Nat
  source : Nat
  destination : Nat
  attempt : Nat
  state : RelocationState
deriving DecidableEq, Repr

/-! ### Order Dispatcher and Port Interfaces -/

/-- R99: the work of an order. -/
inductive OrderWork where
  | erase (block : Nat)
  | copy (source destination : Nat)
deriving DecidableEq, Repr

/-- R99: an order record, with the slot it occupies. -/
structure Order where
  slot : Nat
  work : OrderWork
  die : Nat
  tag : Byte
  epoch : Byte
  timer : Nat
deriving DecidableEq, Repr

/-- 10.1.5: the two kinds of lease notice. -/
inductive NoticeKind where
  | expired | revoked
deriving DecidableEq, Repr

/-- R128: a lease notice waiting in a pending notice set. `write` is the lease's kind. -/
structure LeaseNotice where
  kind : NoticeKind
  lease : Nat
  write : Bool
  tag : Byte
deriving DecidableEq, Repr

/-- R127: a frame in an outgoing queue. Its credit field and check word are made when it leaves (R124). -/
structure OutFrame where
  kind : Byte
  tag : Byte
  payload : List Word
deriving DecidableEq, Repr

/-- Chapters 5 and 6: what is kept for one map port. `orders` holds the issued orders, oldest issue first, each with its slot. `issueDue`
says that the Order Dispatcher has yet to consider the port (R103). `txLane` is what the transmit lanes last carried. -/
structure Port where
  link : LinkState
  epoch : Byte
  lossCause : LossCause
  credits : Nat
  fifo : List Frame
  outgoing : List OutFrame
  notices : List LeaseNotice
  mapResetFlag : Bool
  groupSize : Nat
  frameErrors : Nat
  overruns : Nat
  discards : Nat
  orders : List Order
  tagCounter : Byte
  lastEraseDie : Option Nat
  issueDue : Bool
  txLane : List Word
deriving DecidableEq, Repr

/-! ### Image Engine -/

/-- R159: what a load has recorded of its image: the header's items and the records, in stream order. -/
structure ImageBuild where
  geometry : Geometry
  generation : Word
  initialReserves : List Int
  logical : List LogicalFields
  physical : List PhysFields
deriving DecidableEq, Repr

/-- R154: the state of a load. `named` holds the blocks (die, block) whose named mark is set. -/
structure LoadStream where
  phase : LoadPhase
  received : Nat
  size : Option Nat
  sum : Word
  fault : Option (LoadFault × Nat)
  named : List (Nat × Nat)
  build : ImageBuild
deriving DecidableEq, Repr

/-- R168: an entry of the shadow table: a record's key and its recorded fields at SAVE_BEGIN. -/
inductive ShadowEntry where
  | logical (l : Nat) (fields : LogicalFields)
  | physical (die block : Nat) (fields : PhysFields)
deriving DecidableEq, Repr

/-- R164, R165: the state of a save. -/
structure SaveSweep where
  status : SaveStatus
  size : Nat
  position : Nat
  header : List Word
  sum : Word
  shadow : List ShadowEntry
deriving DecidableEq, Repr

/-! ### Control Unit and Maintenance Interface -/

/-- R136: an entry of the factory bad list. -/
structure BlockName where
  die : Nat
  block : Nat
deriving DecidableEq, Repr

/-- R139: the arguments of a FORMAT that runs. -/
structure FormatArgs where
  geometry : Geometry
  minSpares : Nat
deriving DecidableEq, Repr

/-- R175: the busy operation. A running FORMAT keeps its arguments until it completes. -/
inductive Busy where
  | none
  | format (args : FormatArgs)
  | loadEnd
deriving DecidableEq, Repr

/-- R175: the outcome of the last FORMAT or load to end. -/
inductive LastResult where
  | none
  | formatOk (applying ignored : Nat)
  | fixedBad (die block : Nat)
  | noRoom (die : Nat)
  | loadOk (generation : Word)
  | loadFault (fault : LoadFault) (index : Nat)
deriving DecidableEq, Repr

/-- Section 9.4: the parameter store. -/
structure Params where
  levelEnable : Bool
  levelGap : Nat
  spareWarn : Nat
  leaseLimit : Nat
  orderLimit : Nat
  leaseQuota : Vector Nat 4
  diePort : Vector PortId 8
  attnMask : CauseSet
deriving DecidableEq, Repr

/-! ### The whole part -/

/-- The state of the SB640, grouped by the owners of section 3. `evaluationsOwed` counts, for each die, the triggers of R81 whose
evaluation has not been made; `drainCheckDue` says that a drain check of R144 has not been made; `pending` holds the commands that
wait, first in, first out. -/
structure State where
  /-- Control Unit (chapter 7). -/
  tableState : TableState
  badList : List BlockName
  drainKind : DrainKind
  drainCheckDue : Bool
  /-- Map Engine (chapter 1, R130). -/
  table : Option Table
  generation : Word
  lastServed : Option PortId
  /-- Lease Unit (R45). -/
  leases : Vector (Option Lease) 64
  /-- Relocation Engine (R79, R80, R81). -/
  relocations : Vector (Option Relocation) 8
  waiting : List Nat
  evaluationsOwed : Vector Nat 8
  /-- Port Interfaces and Order Dispatcher (chapters 5 and 6). -/
  ports : Vector Port 4
  /-- Image Engine (chapter 8). -/
  load : LoadStream
  save : SaveSweep
  /-- Maintenance Interface (chapter 9). -/
  phase : Phase
  response : List Byte
  busy : Busy
  lastResult : LastResult
  attention : CauseSet
  params : Params
  /-- The queue of commands that wait. -/
  pending : List Instr
deriving DecidableEq, Repr

/-- The part never stops with a fault: every command the spec names ends in a state. The type is closed and empty. -/
inductive Fault
deriving DecidableEq, Repr

/-- Why a command is turned away without a meaning. -/
inductive Refusal where
  /-- Raised by `exec` for a row that has no meaning yet; safe. -/
  | notModelled (mnemonic : String)
  /-- Raised by the rows BAD_FRAME and UNKNOWN_COMMAND for a command frame that is not one of theirs (R174, R189): a frame whose check
  passes, or a frame that another row of the table covers. No well-formed command raises it; safe. -/
  | otherRow
deriving DecidableEq, Repr

/-! ### Device reset -/

/-- R117, R114: a port after device reset. -/
def Port.reset : Port where
  link := .down
  epoch := 0#8
  lossCause := .none
  credits := 0
  fifo := []
  outgoing := []
  notices := []
  mapResetFlag := false
  groupSize := 0
  frameErrors := 0
  overruns := 0
  discards := 0
  orders := []
  tagCounter := 0#8
  lastEraseDie := none
  issueDue := false
  txLane := []

/-- Nothing recorded of an image. That the header items are 0 while no load has recorded any is the model's choice (DESIGN CHOICE, unsafe: log
entry 18). -/
def ImageBuild.empty : ImageBuild := ⟨⟨0, 0, 0, 0⟩, 0#32, [], [], []⟩

/-- R154: no load. What it has recorded of an image is the model's choice (log entry 18). -/
def LoadStream.reset : LoadStream := ⟨.idle, 0, none, 0#32, none, [], .empty⟩

/-- R165: no save: status, position, size, sum and shadow table. The save header has no value after device reset in R165 or R150; that it is
empty is the model's choice (DESIGN CHOICE, unsafe: log entry 18). -/
def SaveSweep.reset : SaveSweep := ⟨.none, 0, 0, [], 0#32, []⟩

/-- Section 9.4: the defaults of the parameters. -/
def Params.reset : Params where
  levelEnable := true
  levelGap := 4
  spareWarn := 8
  leaseLimit := 2000
  orderLimit := 500
  leaseQuota := #v[16, 16, 16, 16]
  diePort := #v[0, 1, 2, 3, 0, 1, 2, 3]
  attnMask := 0b11111#5

/-- R150: the part after device reset. -/
def State.reset : State where
  tableState := .blank
  badList := []
  drainKind := .none
  drainCheckDue := false
  table := none
  generation := 0#32
  lastServed := none
  leases := Vector.replicate 64 none
  relocations := Vector.replicate 8 none
  waiting := []
  evaluationsOwed := Vector.replicate 8 0
  ports := Vector.replicate 4 .reset
  load := .reset
  save := .reset
  phase := .idle
  response := []
  busy := .none
  lastResult := .none
  attention := 0#5
  params := .reset
  pending := []

end Sys2Proof.Machine
end

