-- ==== Sys2Proof/Machine/Flags.lean ====
section
/-! DEFINITION. The derived values and flags: wear class, home die, homed counts, health, attention causes and the ATTN line. -/

namespace Sys2Proof.Machine

/-- R19: the class of an erase count, the count divided by CLASS_WIDTH rounded down, capped at 62. -/
def classOf (width count : Nat) : Nat := min (count / width) Config.maxClass

/-- R9: an erase count after one more successful erasure, saturating. -/
def nextEraseCount (count : Nat) : Nat := min (count + 1) Config.maxEraseCount

/-- R118: an error counter after one more frame, saturating at 65535. -/
def countUp (n : Nat) : Nat := min (n + 1) Config.counterMax

/-- R124: the credits owed after one more credit, at most 8. -/
def creditUp (n : Nat) : Nat := min (n + 1) Config.maxCredits

/-- R2: the home die of logical block `l`. -/
def Geometry.home (g : Geometry) (l : Nat) : Nat := l % g.dieCount

/-- R2: the number of logical blocks homed on die `d`. -/
def Geometry.homed (g : Geometry) (d : Nat) : Nat :=
  g.logicalCount / g.dieCount + (if d < g.logicalCount % g.dieCount then 1 else 0)

/-- R152: the words of an image of this geometry. -/
def Geometry.imageSize (g : Geometry) : Nat :=
  Config.headerWords + g.logicalCount + g.dieCount * g.blocksPerDie + 1

/-- R39: the health that a reserve gives under SPARE_WARN. -/
def healthOf (spareWarn : Nat) (reserve : Int) : Health :=
  if reserve ≤ 0 then .exhausted else if reserve < (spareWarn : Int) then .low else .good

/-- 10.2: the bit of a cause in a cause set. -/
def Cause.bit : Cause → CauseSet
  | .dieHealth => 0b00001#5
  | .portFault => 0b00010#5
  | .dataAtRisk => 0b00100#5
  | .opDone => 0b01000#5
  | .drained => 0b10000#5

/-- R180: whether a cause is in a set. -/
def Cause.isIn (c : Cause) (set : CauseSet) : Bool := (set &&& c.bit) != 0#5

/-- R180: a cause is raised; one that is pending stays pending. -/
def State.raise (s : State) (c : Cause) : State := { s with attention := s.attention ||| c.bit }

/-- R180: a cause is raised when the condition holds. -/
def State.raiseIf (s : State) (b : Bool) (c : Cause) : State := if b then s.raise c else s

/-- R182: the ATTN output, asserted while some pending cause is in ATTN_MASK. -/
def State.attnLine (s : State) : Bool := (s.attention &&& s.params.attnMask) != 0#5

/-- R183: the order of healths, worst last. -/
def Health.worse : Health → Health → Health
  | .exhausted, _ | _, .exhausted => .exhausted
  | .low, _ | _, .low => .low
  | .good, .good => .good

/-- R183: the worst health of any die of a table. -/
def Table.worstHealth (t : Table) : Health := t.dies.foldr (fun d h => d.health.worse h) .good

/-- R44, R183: whether some die is LOW or EXHAUSTED. -/
def Table.alarm (t : Table) : Bool := t.dies.any fun d => d.health != .good

/-- R25: whether the inquiries find a table: the states OFFLINE, ONLINE and DRAINING. -/
def TableState.hasTable : TableState → Bool
  | .offline | .online | .draining => true
  | .blank | .formatting | .loading => false

/-- R68, R73: whether DISCARD and REPORT_WEAK are served: ONLINE and DRAINING. -/
def TableState.inService : TableState → Bool
  | .online | .draining => true
  | .blank | .formatting | .loading | .offline => false

end Sys2Proof.Machine
end

