-- ==== Sys2Proof/Machine/Operands.lean ====
section
/-! DEFINITION. The codes and layouts of chapter 10: answer words, orders and notices on the map ports, statuses and fields of
maintenance responses, and the record words of an image. -/

namespace Sys2Proof.Machine

/-! ### Codes (10.1.6, 10.2) -/

/-- 10.1.6: table state codes. -/
def TableState.code : TableState → Byte
  | .blank => 0x00#8
  | .formatting => 0x01#8
  | .loading => 0x02#8
  | .offline => 0x03#8
  | .online => 0x04#8
  | .draining => 0x05#8

/-- 10.1.6: physical state codes. -/
def PhysState.code : PhysState → BitVec 3
  | .fixed => 0#3
  | .spare => 1#3
  | .allocated => 2#3
  | .mapped => 3#3
  | .stale => 4#3
  | .erasing => 5#3
  | .retired => 6#3

/-- 10.1.6: weak codes. -/
def weakCode : Option WeakMark → BitVec 2
  | none => 0#2
  | some .port => 1#2
  | some .host => 2#2

/-- 10.1.6: retire cause codes. -/
def causeCode : Option RetireCause → BitVec 3
  | none => 0#3
  | some .factory => 1#3
  | some .eraseFail => 2#3
  | some .programFail => 3#3
  | some .copyFail => 4#3
  | some .weak => 5#3
  | some .host => 6#3

/-- 10.2: risk codes. -/
def Risk.code : Risk → BitVec 1
  | .none => 0#1
  | .unreadable => 1#1

/-- 10.2: health codes; `none` is NONE, while no table exists. -/
def healthCode : Option Health → Byte
  | some .good => 0x00#8
  | some .low => 0x01#8
  | some .exhausted => 0x02#8
  | none => 0xFF#8

/-- 10.2: drain kind codes. -/
def DrainKind.code : DrainKind → Byte
  | .none => 0x00#8
  | .plain => 0x01#8
  | .forced => 0x02#8

/-- 10.2: busy operation codes. -/
def Busy.code : Busy → Byte
  | .none => 0x00#8
  | .format _ => 0x01#8
  | .loadEnd => 0x02#8

/-- 10.2: load phase codes. -/
def LoadPhase.code : LoadPhase → Byte
  | .idle => 0x00#8
  | .receiving => 0x01#8
  | .checking => 0x02#8

/-- 10.2: save status codes. -/
def SaveStatus.code : SaveStatus → Byte
  | .none => 0x00#8
  | .running => 0x01#8
  | .done => 0x02#8
  | .shadowFull => 0x03#8
  | .aborted => 0x04#8

/-- 10.2.4: link state codes. -/
def LinkState.code : LinkState → Byte
  | .disabled => 0x00#8
  | .down => 0x01#8
  | .up => 0x02#8

/-- 10.2: loss cause codes. -/
def LossCause.code : LossCause → Byte
  | .none => 0x00#8
  | .linkLoss => 0x01#8
  | .orderTimeout => 0x02#8
  | .hello => 0x03#8
  | .disabled => 0x04#8

/-- 10.2: relocation kind codes. -/
def RelocationKind.code : RelocationKind → Byte
  | .level => 0x00#8
  | .rescue => 0x01#8

/-- 10.2: relocation state codes; TRANSLATE reports no CANCELLED relocation (R184), so its 00 is never sent. -/
def RelocationState.code : RelocationState → Byte
  | .waitSlot => 0x00#8
  | .copying _ _ => 0x01#8
  | .cancelled _ _ => 0x00#8

/-- 10.2: fault codes of a load. -/
def LoadFault.code : LoadFault → Byte
  | .magic => 0x03#8
  | .version => 0x04#8
  | .geometry => 0x05#8
  | .range => 0x06#8
  | .stateCode => 0x07#8
  | .duplicate => 0x08#8
  | .length => 0x09#8
  | .short => 0x0A#8
  | .check => 0x0B#8
  | .orphan => 0x0C#8

/-- 10.1.6: the statuses of answers on the map ports. -/
inductive AnswerStatus where
  | ok | more | partialRun | unmapped | newDest | locked | noSpare | waitSpare | leaseFull | draining | badArg | noGroup
  | unknownLease | writeFailed | unknownOrder | queueFull | noEffect | offline
deriving DecidableEq, Repr

/-- 10.1.6: answer status codes. -/
def AnswerStatus.code : AnswerStatus → Byte
  | .ok => 0x00#8
  | .more => 0x01#8
  | .partialRun => 0x02#8
  | .unmapped => 0x03#8
  | .newDest => 0x04#8
  | .locked => 0x05#8
  | .noSpare => 0x06#8
  | .waitSpare => 0x07#8
  | .leaseFull => 0x08#8
  | .draining => 0x09#8
  | .badArg => 0x0A#8
  | .noGroup => 0x0B#8
  | .unknownLease => 0x0C#8
  | .writeFailed => 0x0D#8
  | .unknownOrder => 0x0E#8
  | .queueFull => 0x0F#8
  | .noEffect => 0x10#8
  | .offline => 0x11#8

/-- R174, 10.2: the statuses of maintenance responses. -/
inductive MaintStatus where
  | ok | busy | badFrame | badArg | wrongState | listFull | saving
deriving DecidableEq, Repr

/-- 10.2: maintenance status codes. -/
def MaintStatus.code : MaintStatus → Byte
  | .ok => 0x00#8
  | .busy => 0x01#8
  | .badFrame => 0x02#8
  | .badArg => 0x03#8
  | .wrongState => 0x04#8
  | .listFull => 0x05#8
  | .saving => 0x06#8

/-! ### Answers, orders and notices (10.1.4, 10.1.5) -/

/-- 10.1.2: the kind codes of the frames the part sends. -/
def answerKind : Byte := 0x81#8
/-- 10.1.2. -/
def orderKind : Byte := 0x82#8
/-- 10.1.2. -/
def noticeKind : Byte := 0x83#8
/-- 10.1.2. -/
def creditKind : Byte := 0x84#8

/-- 10.1.4: word 0 of an ANSWER frame: status, kind code of the request answered, lease id (FF where none is named). -/
def answerWord (status : AnswerStatus) (kind lease : Byte) : Word := 0#8 ++ lease ++ kind ++ status.code

/-- 10.1.4: an ANSWER frame: the request's tag, word 0, and the words the status gives. -/
def answerFrame (tag : Byte) (status : AnswerStatus) (kind lease : Byte) (words : List Word) : OutFrame :=
  ⟨answerKind, tag, answerWord status kind lease :: words⟩

/-- A word of up to three fields: bits 0 to 7, 8 to 15 and 16 to 31. -/
def fieldWord (b0 b1 : Byte) (h : Half) : Word := h ++ b1 ++ b0

/-- A word holding a half-word in bits 0 to 15 and a count in bits 16 to 23. -/
def runWord (l : Half) (count : Byte) : Word := 0#8 ++ count ++ l

/-- 10.1.4: an entry word of a read answer. -/
def entryWord (risk : Risk) (die block : Nat) (version : Half) : Word :=
  0#2 ++ risk.code ++ BitVec.ofNat 3 die ++ BitVec.ofNat 10 block ++ version

/-- 10.1.4: a block word. -/
def blockWord (attempt die block : Nat) (version : Half) : Word :=
  BitVec.ofNat 2 attempt ++ 0#1 ++ BitVec.ofNat 3 die ++ BitVec.ofNat 10 block ++ version

/-- R119, 10.1.4: the HELLO answer. -/
def helloAnswer (tag epoch : Byte) (t : TableState) : OutFrame :=
  answerFrame tag .ok helloKind Config.noLease [fieldWord epoch t.code 0#16]

/-- 10.1.5: the kind code of an order. -/
def OrderWork.code : OrderWork → Byte
  | .erase _ => 0x00#8
  | .copy _ _ => 0x01#8

/-- 10.1.5: the block to erase, or the source. -/
def OrderWork.first : OrderWork → Nat
  | .erase b => b
  | .copy s _ => s

/-- 10.1.5: the destination, 0 for ERASE. -/
def OrderWork.second : OrderWork → Nat
  | .erase _ => 0
  | .copy _ d => d

/-- R106, 10.1.5: the ORDER frame of an order. -/
def Order.frame (o : Order) : OutFrame :=
  ⟨orderKind, o.tag,
    [0#13 ++ BitVec.ofNat 3 o.die ++ o.epoch ++ o.work.code,
     0#6 ++ BitVec.ofNat 10 o.work.second ++ 0#6 ++ BitVec.ofNat 10 o.work.first]⟩

/-- 10.1.5: the NOTICE frame of a lease notice. -/
def LeaseNotice.frame (n : LeaseNotice) : OutFrame :=
  ⟨noticeKind, n.tag,
    [0#8 ++ flag n.write ++ byte n.lease ++ (match n.kind with | .expired => 0x01#8 | .revoked => 0x02#8)]⟩

/-- R129, 10.1.5: the MAP_RESET notice. -/
def mapResetNotice : OutFrame := ⟨noticeKind, 0#8, [0#8 ++ 0xFF#8 ++ 0xFF#8 ++ 0x03#8]⟩

/-- R125: the CREDIT frame. -/
def creditFrame : OutFrame := ⟨creditKind, 0#8, []⟩

/-- R124, 10.1.1: the words of a frame as it leaves, with the credits owed in its header and its check word. -/
def OutFrame.words (f : OutFrame) (credit : Nat) : List Word :=
  let body := frameHeader f.kind f.payload.length f.tag credit :: f.payload
  body ++ [checkWord body]

/-! ### Responses (R173, 10.2) -/

/-- R173, 10.2: the bytes of a response frame: status, length, payload, check byte. -/
def responseFrame (status : MaintStatus) (payload : List Byte) : List Byte :=
  let body := frameBody status.code payload
  body ++ [checkByte body]

/-- 10.2: a signed four-byte field. -/
def le32i (i : Int) : List Byte := le32 (BitVec.ofInt 32 i)

/-- 10.2: a cause set as a byte. -/
def causeByte (c : CauseSet) : Byte := 0#3 ++ c

/-- R189: a cause set read from a byte; bits 5 to 7 name no cause. -/
def causesOfByte (b : Byte) : Option CauseSet := if b.extractLsb' 5 3 = 0#3 then some (b.extractLsb' 0 5) else none

/-- 10.2.1: the operation, status and fault code of the last result. -/
def LastResult.codes : LastResult → List Byte
  | .none => [0x00#8, 0x00#8, 0x00#8]
  | .formatOk _ _ => [0x01#8, 0x00#8, 0x00#8]
  | .fixedBad _ _ => [0x01#8, 0x07#8, 0x01#8]
  | .noRoom _ => [0x01#8, 0x07#8, 0x02#8]
  | .loadOk _ => [0x02#8, 0x00#8, 0x00#8]
  | .loadFault f _ => [0x02#8, 0x07#8, f.code]

/-- 10.2.1: the first value of the last result. -/
def LastResult.first : LastResult → Word
  | .none => 0#32
  | .formatOk applying _ => BitVec.ofNat 32 applying
  | .fixedBad die _ => BitVec.ofNat 32 die
  | .noRoom die => BitVec.ofNat 32 die
  | .loadOk g => g
  | .loadFault _ i => BitVec.ofNat 32 i

/-- 10.2.1: the second value of the last result. -/
def LastResult.second : LastResult → Half
  | .formatOk _ ignored => BitVec.ofNat 16 ignored
  | .fixedBad _ block => BitVec.ofNat 16 block
  | .none | .noRoom _ | .loadOk _ | .loadFault _ _ => 0#16

/-! ### Image words (R153, 10.3) -/

/-- R153, 10.3: the word of a logical record. -/
def LogicalFields.word (r : LogicalFields) : Word :=
  match r.block with
  | some b => 1#1 ++ r.risk.code ++ 0#4 ++ BitVec.ofNat 10 b ++ r.version
  | none => 0#16 ++ r.version

/-- R153, R190, 10.3: the word of a physical record; a FIXED record has count 0 and neither mark nor cause. -/
def PhysFields.word (r : PhysFields) : Word :=
  match r.state with
  | .fixed => 0#32
  | .spare | .allocated | .mapped | .stale | .erasing | .retired =>
    causeCode r.cause ++ weakCode r.weak ++ r.state.code ++ BitVec.ofNat 24 r.eraseCount

/-- 10.3: the state a state code names. -/
def PhysState.ofCode (c : BitVec 3) : Option PhysState :=
  match c.toNat with
  | 0 => some .fixed
  | 1 => some .spare
  | 2 => some .allocated
  | 3 => some .mapped
  | 4 => some .stale
  | 5 => some .erasing
  | 6 => some .retired
  | _ => none

/-- 10.3: the weak mark, or absence, a weak code names. -/
def weakOfCode (c : BitVec 2) : Option (Option WeakMark) :=
  match c.toNat with
  | 0 => some none
  | 1 => some (some .port)
  | 2 => some (some .host)
  | _ => none

/-- 10.3: the retire cause, or absence, a retire cause code names. -/
def causeOfCode (c : BitVec 3) : Option (Option RetireCause) :=
  match c.toNat with
  | 0 => some none
  | 1 => some (some .factory)
  | 2 => some (some .eraseFail)
  | 3 => some (some .programFail)
  | 4 => some (some .copyFail)
  | 5 => some (some .weak)
  | 6 => some (some .host)
  | _ => none

end Sys2Proof.Machine
end

