-- ==== Sys2Proof/Machine/Ops.lean ====
section
/-! DEFINITION. The operations the meanings share: reading and writing records (with the histograms, the generation and the shadow
table), spare lists and erase queues, retirement, rescue queues, relocations, lease ends, outgoing queues and port loss. -/

namespace Sys2Proof.Machine

/-! ### Reading the state -/

/-- R1: the geometry of the table; all zero while no table exists. -/
def State.geometry (s : State) : Geometry :=
  match s.table with
  | some t => t.geometry
  | none => ⟨0, 0, 0, 0⟩

/-- What is kept for die `d`. -/
def State.die? (s : State) (d : Nat) : Option Die := s.table.bind fun t => t.dies[d]?

/-- R8: the physical record of block `b` of die `d`. -/
def State.phys? (s : State) (d b : Nat) : Option PhysRecord := (s.die? d).bind fun x => x.blocks[b]?

/-- R3: the logical record of `l`. -/
def State.logical? (s : State) (l : Nat) : Option LogicalRecord := s.table.bind fun t => t.logical[l]?

/-- R2: the home die of `l`. -/
def State.home (s : State) (l : Nat) : Nat := s.geometry.home l

/-- R45: the open lease of this id. -/
def State.lease? (s : State) (id : Nat) : Option Lease := (s.leases[id]?).join

/-- R79: the relocation in the slot of die `d`. -/
def State.relocation? (s : State) (d : Nat) : Option Relocation := (s.relocations[d]?).join

/-- R101: the port that owns die `d` for orders. -/
def State.diePort (s : State) (d : Nat) : PortId := (s.params.diePort[d]?).getD 0

/-- The spare list of die `d`. -/
def State.spares (s : State) (d : Nat) : List Nat := ((s.die? d).map (·.spares)).getD []

/-- The rescue queue of die `d`. -/
def State.rescue (s : State) (d : Nat) : List Nat := ((s.die? d).map (·.rescue)).getD []

/-- R39: the health of die `d`. -/
def State.health? (s : State) (d : Nat) : Option Health := (s.die? d).map (·.health)

/-- R101: the dies of the table that port `p` owns, in ascending number. -/
def State.ownedDies (s : State) (p : PortId) : List Nat :=
  (List.range s.geometry.dieCount).filter fun d => s.diePort d == p

/-- R45: the number of open leases. -/
def State.openLeases (s : State) : Nat := s.leases.toList.countP (·.isSome)

/-- R46: the number of open leases of port `p`. -/
def State.leasesOf (s : State) (p : PortId) : Nat := s.leases.toList.countP fun o => o.any fun l => l.port == p

/-- R46: the lowest lease id whose entry is free. -/
def State.freeLease (s : State) : Option Nat := s.leases.toList.findIdx? (·.isNone)

/-- R71: the ids of the open leases of port `p`, ascending. -/
def State.leaseIdsOf (s : State) (p : PortId) : List Nat :=
  (List.range Config.leaseEntries).filter fun id => (s.lease? id).any fun l => l.port == p

/-! ### Writing the state -/

/-- The table changed by `f`, if there is one. -/
def State.mapTable (s : State) (f : Table → Table) : State := { s with table := s.table.map f }

/-- What is kept for die `d` changed by `f`. -/
def State.mapDie (s : State) (d : Nat) (f : Die → Die) : State :=
  s.mapTable fun t => { t with dies := t.dies.modify d f }

/-- Port `p` changed by `f`. -/
def State.mapPort (s : State) (p : PortId) (f : Port → Port) : State := { s with ports := s.ports.set p (f s.ports[p]) }

/-- R45: the entry of lease `id`, filled or freed. -/
def State.setLease (s : State) (id : Nat) (o : Option Lease) : State := { s with leases := s.leases.setIfInBounds id o }

/-- R79: the relocation slot of die `d`, filled or emptied. -/
def State.setRelocation (s : State) (d : Nat) (o : Option Relocation) : State :=
  { s with relocations := s.relocations.setIfInBounds d o }

/-- R80: the waiting list. -/
def State.setWaiting (s : State) (w : List Nat) : State := { s with waiting := w }

/-- R81: a trigger for die `d`: one more evaluation is owed. -/
def State.triggerDie (s : State) (d : Nat) : State :=
  { s with evaluationsOwed := s.evaluationsOwed.setIfInBounds d ((s.evaluationsOwed[d]?).getD 0 + 1) }

/-- R103: port `p` is to be considered for an issue. -/
def State.consider (s : State) (p : PortId) : State := s.mapPort p fun x => { x with issueDue := true }

/-- R103: the port that owns die `d` is to be considered for an issue. -/
def State.considerOwner (s : State) (d : Nat) : State := s.consider (s.diePort d)

/-- R144: while the table is DRAINING, a drain check is owed. -/
def State.oweDrainCheck (s : State) : State :=
  if s.tableState = .draining then { s with drainCheckDue := true } else s

/-- R127: a frame is placed at the tail of port `p`'s outgoing queue. -/
def State.place (s : State) (p : PortId) (f : OutFrame) : State :=
  s.mapPort p fun x => { x with outgoing := x.outgoing ++ [f] }

/-- R128: a lease notice is placed at the tail of the outgoing queue, or enters the pending notice set when the queue is full. -/
def State.notify (s : State) (p : PortId) (n : LeaseNotice) : State :=
  s.mapPort p fun x =>
    if x.outgoing.length < Config.outgoingDepth then { x with outgoing := x.outgoing ++ [n.frame] }
    else { x with notices := x.notices ++ [n] }

/-- R25, R44, R97: the table is discarded as it stands, with the generation and the triggers that name its dies. -/
def State.discardTable (s : State) : State :=
  { s with table := none, generation := 0#32, evaluationsOwed := Vector.replicate 8 0 }

/-! ### The shadow table (R24, R164, R168, R169) -/

/-- R152: the word index of the record an entry is for. -/
def ShadowEntry.index (g : Geometry) : ShadowEntry → Nat
  | .logical l _ => Config.headerWords + l
  | .physical d b _ => Config.headerWords + g.logicalCount + d * g.blocksPerDie + b

/-- R168: whether an entry is for logical block `l`. -/
def ShadowEntry.isLogical (l : Nat) : ShadowEntry → Bool
  | .logical l' _ => l' == l
  | .physical _ _ _ => false

/-- R168: whether an entry is for block `b` of die `d`. -/
def ShadowEntry.isPhysical (d b : Nat) : ShadowEntry → Bool
  | .logical _ _ => false
  | .physical d' b' _ => d' == d && b' == b

/-- R168: whether two entries are for the same record. -/
def ShadowEntry.sameRecord (e : ShadowEntry) : ShadowEntry → Bool
  | .logical l _ => e.isLogical l
  | .physical d b _ => e.isPhysical d b

/-- R169: the save ends because the shadow table is full. -/
def State.shadowFull (s : State) : State :=
  { s with save := { s.save with status := .shadowFull, shadow := [] } }.raise .opDone

/-- R24, R168: while a save runs, the record `e` is handed to the Image Engine before its recorded fields change. -/
def State.hand (s : State) (e : ShadowEntry) : State :=
  if s.save.status ≠ .running then s
  else if e.index s.geometry < s.save.position then s
  else if s.save.shadow.any e.sameRecord then s
  else if s.save.shadow.length < Config.shadowEntries then
    { s with save := { s.save with shadow := s.save.shadow ++ [e] } }
  else s.shadowFull

/-! ### A change (R22, R23) -/

/-- R23: a change in the making: the state it has reached, and whether it has altered a recorded field. -/
structure Change where
  s : State
  altered : Bool

/-- A change begins. -/
def State.begin (s : State) : Change := ⟨s, false⟩

/-- R22: a change is complete: the generation steps once if it altered a recorded field. -/
def Change.finish (c : Change) : State := if c.altered then { c.s with generation := c.s.generation + 1#32 } else c.s

/-- A step of a change that alters no recorded field. -/
def Change.on (c : Change) (f : State → State) : Change := { c with s := f c.s }

/-- R22, R24: a recorded field of the record `e` is about to change. -/
def Change.alter (c : Change) (e : ShadowEntry) : Change := ⟨c.s.hand e, true⟩

/-- R3: the logical record of `l` becomes `r`; the record is handed and the change marked only when a recorded field differs. -/
def Change.writeLogical (c : Change) (l : Nat) (r : LogicalRecord) : Change :=
  match c.s.logical? l with
  | none => c
  | some old =>
    (if old.toLogicalFields = r.toLogicalFields then c else c.alter (.logical l old.toLogicalFields)).on fun s =>
      s.mapTable fun t => { t with logical := t.logical.set l r }

/-- The logical record of `l` changed by `f`. -/
def Change.updateLogical (c : Change) (l : Nat) (f : LogicalRecord → LogicalRecord) : Change :=
  match c.s.logical? l with
  | none => c
  | some old => c.writeLogical l (f old)

/-- R20: the class under which the wear histogram counts a block: FIXED and RETIRED blocks are in none. -/
def wearClass (width : Nat) (r : PhysRecord) : Option Nat :=
  if r.state = .fixed ∨ r.state = .retired then none else some (classOf width r.eraseCount)

/-- R20: the class under which the mapped histogram counts a block: only MAPPED blocks are in one. -/
def mappedClass (width : Nat) (r : PhysRecord) : Option Nat :=
  if r.state = .mapped then some (classOf width r.eraseCount) else none

/-- R21: a histogram when a block's place in it goes from one class, or none, to another. -/
def moveCount (h : List Nat) (old new : Option Nat) : List Nat :=
  if old = new then h
  else
    let h := match old with | some c => h.modify c (· - 1) | none => h
    match new with | some c => h.modify c (· + 1) | none => h

/-- R21: a die when block `b` goes from the record `old` to `r`: the record and both histograms move together. -/
def Die.writeBlock (x : Die) (width b : Nat) (old r : PhysRecord) : Die :=
  { x with
    blocks := x.blocks.set b r
    wear := moveCount x.wear (wearClass width old) (wearClass width r)
    mapped := moveCount x.mapped (mappedClass width old) (mappedClass width r) }

/-- R8, R21: the record of block `b` of die `d` becomes `r`, and the histograms move with it; the record is handed and the change
marked only when a recorded field differs. -/
def Change.writePhys (c : Change) (d b : Nat) (r : PhysRecord) : Change :=
  match c.s.phys? d b with
  | none => c
  | some old =>
    (if old.toPhysFields = r.toPhysFields then c else c.alter (.physical d b old.toPhysFields)).on fun s =>
      s.mapDie d fun x => x.writeBlock s.geometry.classWidth b old r

/-- The record of block `b` of die `d` changed by `f`. -/
def Change.updatePhys (c : Change) (d b : Nat) (f : PhysRecord → PhysRecord) : Change :=
  match c.s.phys? d b with
  | none => c
  | some old => c.writePhys d b (f old)

/-! ### Health and retirement (R36, R39) -/

/-- R39: die `d`'s health is computed again; DIE_HEALTH is raised if it changes. -/
def State.recomputeHealth (s : State) (d : Nat) : State :=
  match s.die? d with
  | none => s
  | some x =>
    let h := healthOf s.params.spareWarn x.reserve
    (s.mapDie d fun y => { y with health := h }).raiseIf (h != x.health) .dieHealth

/-- R36: a block retires with this cause and erase count: it leaves every list and queue, the histograms lose it, the retired count
rises, the reserve falls, and the health is computed again. -/
def Change.retireWith (c : Change) (d b : Nat) (cause : RetireCause) (count : Nat) : Change :=
  match c.s.phys? d b with
  | none => c
  | some r =>
    (c.writePhys d b { r with state := .retired, cause := some cause, eraseCount := count, owner := none, readers := 0 }).on
      fun s =>
        (s.mapDie d fun x =>
          { x with
            spares := x.spares.filter (· != b)
            eraseQueue := x.eraseQueue.filter (· != b)
            retired := x.retired + 1
            reserve := x.reserve - 1 }).recomputeHealth d

/-- R36: a block retires with the erase count it has. -/
def Change.retire (c : Change) (d b : Nat) (cause : RetireCause) : Change :=
  match c.s.phys? d b with
  | none => c
  | some r => c.retireWith d b cause r.eraseCount

/-- R12: the cause with which a block of this mark retires. -/
def WeakMark.retireCause : WeakMark → RetireCause
  | .port => .weak
  | .host => .host

/-! ### Stale blocks and the erase queue (R16, R31) -/

/-- R31, R51: a block joins the tail of its die's erase queue, and the owning port is to be considered. -/
def State.joinEraseQueue (s : State) (d b : Nat) : State :=
  (s.mapDie d fun x => { x with eraseQueue := x.eraseQueue ++ [b] }).considerOwner d

/-- R16: the disposition of a STALE block: with readers it waits; without, it retires if weak and joins the erase queue if not. -/
def Change.dispose (c : Change) (d b : Nat) : Change :=
  match c.s.phys? d b with
  | none => c
  | some r =>
    if r.readers = 0 then
      match r.weak with
      | some w => c.retire d b w.retireCause
      | none => c.on fun s => s.joinEraseQueue d b
    else c

/-- R16: a block enters STALE, keeping its readers and mark, and is disposed of in the same change. -/
def Change.makeStale (c : Change) (d b : Nat) : Change :=
  (c.updatePhys d b fun r => { r with state := .stale, owner := none }).dispose d b

/-- R10, R49: a block loses one reader; a STALE block whose readers fall to 0 is disposed of. -/
def Change.dropReader (c : Change) (d b : Nat) : Change :=
  match c.s.phys? d b with
  | none => c
  | some r =>
    let c := c.writePhys d b { r with readers := r.readers - 1 }
    if r.state = .stale ∧ r.readers = 1 then c.dispose d b else c

/-- R11: a mark arriving on a mark: HOST replaces PORT, and PORT leaves HOST in place. -/
def WeakMark.merge (new : WeakMark) : Option WeakMark → WeakMark
  | some .host => .host
  | some .port | none => new

/-- R11: a weak mark arrives on a block. -/
def Change.mark (c : Change) (d b : Nat) (w : WeakMark) : Change :=
  c.updatePhys d b fun r => { r with weak := some (w.merge r.weak) }

/-- R11, R37: a weak mark arrives on a STALE block: without readers it leaves the erase queue and retires in the same change. -/
def Change.markStale (c : Change) (d b : Nat) (w : WeakMark) : Change :=
  let c := c.mark d b w
  match c.s.phys? d b with
  | none => c
  | some r => if r.readers = 0 then c.retire d b ((w.merge r.weak).retireCause) else c

/-! ### The spare list (R27 to R30) -/

/-- R28: block `b` inserted before the first entry of greater erase count, or of equal count and greater index. -/
def insertSpare (count : Nat → Nat) (b : Nat) : List Nat → List Nat
  | [] => [b]
  | e :: es =>
    if count b < count e ∨ (count b = count e ∧ b < e) then b :: e :: es else e :: insertSpare count b es

/-- The erase count of block `b` of a die. -/
def Die.eraseCount (x : Die) (b : Nat) : Nat := ((x.blocks[b]?).map (·.eraseCount)).getD 0

/-- R18, R28: a block becomes SPARE with this erase count and joins its die's spare list at its place. -/
def Change.joinSpare (c : Change) (d b count : Nat) : Change :=
  (c.updatePhys d b fun r => { r with state := .spare, eraseCount := count, owner := none }).on fun s =>
    s.mapDie d fun x => { x with spares := insertSpare x.eraseCount b x.spares }

/-- R29: the two ends of a spare list. -/
inductive SpareEnd where
  | front | back
deriving DecidableEq, Repr

/-- R29: the block at an end of a spare list. -/
def SpareEnd.pick : SpareEnd → List Nat → Option Nat
  | .front, l => l.head?
  | .back, l => l.getLast?

/-- R29: a spare list without the block at an end. -/
def SpareEnd.rest : SpareEnd → List Nat → List Nat
  | .front, l => l.tail
  | .back, l => l.dropLast

/-- R14, R29: the block at an end of die `d`'s spare list leaves the list and becomes ALLOCATED; none when the list is empty. -/
def Change.takeSpare (c : Change) (d : Nat) (e : SpareEnd) : Option (Nat × Change) :=
  match e.pick (c.s.spares d) with
  | none => none
  | some b =>
    some (b, (c.updatePhys d b fun r => { r with state := .allocated }).on fun s =>
      s.mapDie d fun x => { x with spares := e.rest x.spares })

/-- R30: the outcomes of the spare check. -/
inductive SpareCheck where
  | grant | noSpare | waitSpare
deriving DecidableEq, Repr

/-- R30: the spare check for a write on a logical block of home die `d`, UNMAPPED or not. -/
def State.spareCheck (s : State) (d : Nat) (unmapped : Bool) : SpareCheck :=
  match s.die? d with
  | none => .noSpare
  | some x =>
    if unmapped ∧ x.health = .exhausted then .noSpare
    else if x.spares ≠ [] then .grant
    else if x.blocks.any fun r => r.state == .stale || r.state == .erasing then .waitSpare
    else .noSpare

/-! ### Rescue queues (R75, R76, R77) -/

/-- R79: whether a relocation is active: in WAIT_SLOT or COPYING. -/
def Relocation.active (r : Relocation) : Bool :=
  match r.state with
  | .waitSlot | .copying _ _ => true
  | .cancelled _ _ => false

/-- R79: the active relocation of logical block `l`, in the slot of its home die. -/
def State.activeRelocation (s : State) (l : Nat) : Option Relocation :=
  (s.relocation? (s.home l)).filter fun r => r.active && r.logical == l

/-- R77: `l` leaves its die's rescue queue, wherever it stands. -/
def State.leaveRescue (s : State) (l : Nat) : State :=
  s.mapDie (s.home l) fun x => { x with rescue := x.rescue.filter (· != l) }

/-- R75: whether an offer of `l` finds the queue full: it merges with neither a relocation nor an entry, and 16 entries stand there. -/
def State.offerRefused (s : State) (l : Nat) : Bool :=
  (s.activeRelocation l).isNone && !(s.rescue (s.home l)).contains l
    && decide (Config.rescueDepth ≤ (s.rescue (s.home l)).length)

/-- R75: `l` is offered to its home die's rescue queue, at the head or the tail. It merges with an active relocation, which becomes
RESCUE, or with its entry; or it joins, and at the tail that is a trigger (R81); or it is refused and DATA_AT_RISK is raised. -/
def State.offer (s : State) (l : Nat) (atHead : Bool) : State :=
  let d := s.home l
  match s.activeRelocation l with
  | some r => s.setRelocation d (some { r with kind := .rescue })
  | none =>
    if (s.rescue d).contains l then s
    else if (s.rescue d).length < Config.rescueDepth then
      if atHead then s.mapDie d fun x => { x with rescue := l :: x.rescue }
      else (s.mapDie d fun x => { x with rescue := x.rescue ++ [l] }).triggerDie d
    else s.raise .dataAtRisk

/-! ### Relocations (R79, R80, R92 to R96) -/

/-- R79: the relocation in the slot of die `d` is freed: the slot is empty, the waiting list is without it, and its logical block's
link is cleared. -/
def Change.freeRelocation (c : Change) (d : Nat) : Change :=
  match c.s.relocation? d with
  | none => c
  | some r =>
    (c.on fun s => (s.setRelocation d none).setWaiting (s.waiting.filter (· != d))).updateLogical r.logical fun x =>
      { x with relocating := false }

/-- R75, R77: a RESCUE relocation's logical block is offered back. -/
def Change.offerBack (c : Change) (r : Relocation) (atHead : Bool) : Change :=
  if r.kind = .rescue then c.on fun s => s.offer r.logical atHead else c

/-- R92, R95: the relocation of die `d` is dropped from WAIT_SLOT: it is freed, its destination returns to the spare list, and a RESCUE
logical block returns to the head of its queue where `returns` says so. -/
def Change.dropWaiting (c : Change) (d : Nat) (returns : Bool) : Change :=
  match c.s.relocation? d with
  | none => c
  | some r =>
    let count := ((c.s.phys? d r.destination).map (·.eraseCount)).getD 0
    let c := (c.freeRelocation d).joinSpare d r.destination count
    if returns then c.offerBack r true else c

/-- R92, R96: the relocation of die `d` goes from COPYING to CANCELLED: its logical block's link is cleared, and a RESCUE logical block
returns to the head of its queue where `returns` says so. -/
def Change.cancelCopying (c : Change) (d : Nat) (returns : Bool) : Change :=
  match c.s.relocation? d with
  | none => c
  | some r =>
    match r.state with
    | .copying tag epoch =>
      let c := (c.on fun s => s.setRelocation d (some { r with state := .cancelled tag epoch })).updateLogical r.logical
        fun x => { x with relocating := false }
      if returns then c.offerBack r true else c
    | .waitSlot | .cancelled _ _ => c

/-- R92, R93: a relocation of `l`, if active, is cancelled; `returns` is false for DISCARD. -/
def Change.cancelRelocation (c : Change) (l : Nat) (returns : Bool) : Change :=
  match c.s.activeRelocation l with
  | none => c
  | some r =>
    match r.state with
    | .waitSlot => c.dropWaiting (c.s.home l) returns
    | .copying _ _ => c.cancelCopying (c.s.home l) returns
    | .cancelled _ _ => c

/-- R79: the relocation to which the COPY order of this die, tag and epoch belongs. -/
def State.relocationOf (s : State) (d : Nat) (tag epoch : Byte) : Option Relocation :=
  (s.relocation? d).filter fun r => r.state == .copying tag epoch || r.state == .cancelled tag epoch

/-! ### Lease ends (R49, R50, R51) -/

/-- R52: the expiry a change sets: LEASE_LIMIT, or no timer when it is 0. -/
def State.newExpiry (s : State) : Option Nat := if s.params.leaseLimit = 0 then none else some s.params.leaseLimit

/-- R51: a write lease on `l` is freed: the entry is free, the link cleared, and the lease's end is a trigger for the home die. -/
def Change.freeWrite (c : Change) (id l : Nat) : Change :=
  ((c.on fun s => s.setLease id none).updateLogical l fun r => { r with writeLease := none }).on fun s =>
    s.triggerDie (s.home l)

/-- R49, R50: a lease ends other than by COMMIT: a read lease is released, a write lease is abandoned. -/
def Change.endLease (c : Change) (id : Nat) : Change :=
  match c.s.lease? id with
  | none => c
  | some l =>
    match l.body with
    | .read entries => (entries.foldl (fun c e => c.dropReader e.die e.block) c).on fun s => s.setLease id none
    | .write logical destination _ => (c.makeStale (c.s.home logical) destination).freeWrite id logical

/-- 10.1.5: the notice of the end of a lease. -/
def Lease.notice (l : Lease) (kind : NoticeKind) (id : Nat) : LeaseNotice :=
  { kind := kind, lease := id, write := (match l.body with | .read _ => false | .write _ _ _ => true), tag := l.tag }

/-- R53, R70: a lease ends and its holder is sent a notice. -/
def Change.endLeaseWithNotice (c : Change) (kind : NoticeKind) (id : Nat) : Change :=
  match c.s.lease? id with
  | none => c
  | some l => (c.endLease id).on fun s => s.notify l.port (l.notice kind id)

/-! ### Port loss (R71, R94, R113, R123, R191) -/

/-- R94: a lost COPY order's relocation ends: its destination goes to STALE, an active RESCUE's logical block returns to the head of its
queue, and the freed relocation is a trigger for its die. -/
def Change.loseCopy (c : Change) (d : Nat) (r : Relocation) : Change :=
  let c := (c.makeStale d r.destination).freeRelocation d
  (if r.active then c.offerBack r true else c).on fun s => s.triggerDie d

/-- R113: an order freed by the loss of its port is handed to its owner. -/
def Change.loseOrder (c : Change) (o : Order) : Change :=
  match o.work with
  | .erase b => c.makeStale o.die b
  | .copy _ _ =>
    match c.s.relocationOf o.die o.tag o.epoch with
    | none => c
    | some r => c.loseCopy o.die r

/-- R123: the Port Interface's own part of a loss. -/
def Port.lose (x : Port) (cause : LossCause) (link : LinkState) : Port :=
  { x with
    link := link
    lossCause := cause
    credits := 0
    fifo := []
    outgoing := []
    notices := []
    mapResetFlag := false
    orders := [] }

/-- R123, R191: the loss of an UP port, as a part of one change: its leases end in ascending id, then its orders are freed oldest issue
first. While the table is DRAINING a drain check is owed (R144). -/
def Change.losePort (c : Change) (p : PortId) (cause : LossCause) (link : LinkState) : Change :=
  let orders := c.s.ports[p].orders
  let c := c.on fun s => s.mapPort p fun x => x.lose cause link
  let c := (c.s.leaseIdsOf p).foldl (fun c id => c.endLease id) c
  (orders.foldl (fun c o => c.loseOrder o) c).on State.oweDrainCheck

/-! ### Timers (R52, R109) -/

/-- R54, R110: whether a port has an issued order of this tag. -/
def Port.hasOrder (x : Port) (tag : Byte) : Bool := x.orders.any fun o => o.tag == tag

end Sys2Proof.Machine
end

