-- ==== Sys2Proof/Machine/Intake.lean ====
section
/-! DEFINITION. The intake arbiter (section 6.8): which port's head request is taken next, and what the taking of it does. -/

namespace Sys2Proof.Machine

/-- R58: the entries in each frame of a read answer: GROUP_SIZE, or 1 when GROUP_SIZE is 0. -/
def Port.group (x : Port) : Nat := if x.groupSize = 0 then 1 else x.groupSize

/-- R58, R131: a number divided by a group, rounded up. -/
def ceilDiv (n g : Nat) : Nat := (n + g - 1) / g

/-- R131: the room a head request needs in the outgoing queue. A frame whose form R188 refuses needs one place. -/
def Port.roomNeeded (x : Port) (f : Frame) : Nat :=
  match f.request with
  | some .openRead =>
    let n := f.byte2.toNat
    if 1 ≤ n ∧ n ≤ Config.maxRun then ceilDiv n x.group else 1
  | _ => 1

/-- R130: whether a port is eligible: UP, with a head request and room for its answer. -/
def Port.eligible (x : Port) : Bool :=
  x.link == .up &&
    match x.fifo with
    | [] => false
    | f :: _ => decide (x.outgoing.length + x.roomNeeded f ≤ Config.outgoingDepth)

/-- R130: the ports in the cycle, from the one after the last port served. -/
def portCycle : Option PortId → List PortId
  | none => [0, 1, 2, 3]
  | some 0 => [1, 2, 3, 0]
  | some 1 => [2, 3, 0, 1]
  | some 2 => [3, 0, 1, 2]
  | some 3 => [0, 1, 2, 3]

/-- R130: the port whose head request the arbiter takes next. -/
def State.arbiterChoice (s : State) : Option PortId :=
  (portCycle s.lastServed).find? fun p => s.ports[p].eligible

/-- R124, R130: the head request of port `p` leaves the FIFO, a credit is owed, and `p` is the last port served. -/
def State.takeHead (s : State) (p : PortId) : State :=
  { s.mapPort p fun x => { x with fifo := x.fifo.tail, credits := creditUp x.credits } with lastServed := some p }

/-- R130, R132: the take of a request from port `p`: the arbiter's choice is `p` and its head frame is this request (`none` for a frame
whose form is refused). It gives the frame and the state with the frame taken. -/
def State.taking (s : State) (p : PortId) (kind : Option RequestKind) : Option (Frame × State) :=
  if s.arbiterChoice = some p then
    match s.ports[p].fifo with
    | [] => none
    | f :: _ => if f.request = kind then some (f, s.takeHead p) else none
  else none

/-- The step of a request's row: where the arbiter takes this request from port `p`, the request is served on the state with the frame
taken; where it does not, the event does not happen and nothing changes. -/
def State.serve (s : State) (p : PortId) (kind : Option RequestKind) (body : Frame → State → State) : State :=
  match s.taking p kind with
  | none => s
  | some (f, t) => body f t

/-- R132, 10.1.4: the answer to a request, one frame at the tail of port `p`'s outgoing queue. -/
def State.answer (s : State) (p : PortId) (f : Frame) (status : AnswerStatus) (lease : Byte) (words : List Word) : State :=
  s.place p (answerFrame f.tag status f.kind lease words)

/-- R132: an answer that names no lease and carries nothing. -/
def State.refuse (s : State) (p : PortId) (f : Frame) (status : AnswerStatus) : State := s.answer p f status Config.noLease []

/-- 7.1.1: the answer to a request that the table state does not serve. -/
def TableState.refusal : TableState → AnswerStatus
  | .draining => .draining
  | .blank | .formatting | .loading | .offline | .online => .offline

end Sys2Proof.Machine
end

