-- ==== Sys2Proof/Machine/Transactions.lean ====
section
/-! DEFINITION. Maintenance transactions (R173, R174, R176): the phases, the busy check and the forming of a response. -/

namespace Sys2Proof.Machine

/-- What a command's own rule answers: the state after the command, the status and the response payload. -/
structure Reply where
  s : State
  status : MaintStatus
  payload : List Byte

/-- A command refused by its own rule changes nothing and carries no payload (R174, 10.2). -/
def State.reject (s : State) (status : MaintStatus) : Reply := ⟨s, status, []⟩

/-- R173: the command is taken with its check byte: the phase becomes TURNAROUND and the response frame is formed in the same change. -/
def Reply.take (r : Reply) : State := { r.s with phase := .turnaround, response := responseFrame r.status r.payload }

/-- R176: the payload of a BUSY response: the busy operation and the started flag. -/
def busyPayload (b : Busy) (started : Bool) : List Byte := [b.code, flag started]

/-- R173: a whole command frame is received only in phase COMMAND, that is, while a transaction's command is being clocked in. A command
of this kind is admitted while the part is busy. -/
def State.command (s : State) (body : State → Reply) : State :=
  if s.phase = .command then (body s).take else s

/-- R176: a command other than GET_STATUS, IDENTIFY and ACK_ATTN is answered BUSY, without the started flag, while the part is busy. -/
def State.gatedCommand (s : State) (body : State → Reply) : State :=
  s.command fun s =>
    match s.busy with
    | .none => body s
    | .format _ | .loadEnd => ⟨s, .busy, busyPayload s.busy false⟩

/-! ### The transaction's own commands -/

/-- SPI_SELECT_ASSERT (R173): a new transaction starts in phase COMMAND; what was left of a response is lost. -/
def execSpiSelectAssert (s : State) : Host.Outcome State Fault Refusal := .next { s with phase := .command, response := [] }

/-- SPI_SELECT_RELEASE (R173): the transaction ends; a partial command frame is discarded and the rest of a response is lost. -/
def execSpiSelectRelease (s : State) : Host.Outcome State Fault Refusal := .next { s with phase := .idle, response := [] }

/-- TURNAROUND_END (R173): the part begins to drive the response frame; in another phase no turnaround is under way. -/
def execTurnaroundEnd (s : State) : Host.Outcome State Fault Refusal :=
  .next (if s.phase = .turnaround then { s with phase := .response } else s)

/-- R173: the byte the part drives in place `n` from the start of the current phase: fill in TURNAROUND, the response frame and then fill
in RESPONSE. In IDLE and COMMAND it drives no byte that the spec names. -/
def State.driven (s : State) (n : Nat) : Option Byte :=
  match s.phase with
  | .turnaround => some Config.fillByte
  | .response => some (s.response.getD n Config.fillByte)
  | .idle | .command => none

/-- BAD_FRAME (R174): a damaged frame is answered BAD_FRAME with no payload, busy or not. A frame that passes is not this row's. -/
def execBadFrame (opcode : Byte) (payload : List Byte) (check : Byte) (s : State) : Host.Outcome State Fault Refusal :=
  if commandPasses opcode payload check then .refused .otherRow
  else .next (s.command fun s => s.reject .badFrame)

/-- UNKNOWN_COMMAND (R189): an unknown opcode or unsuitable length is answered BAD_ARG, busy or not; a known command with a code that
selects none of its forms is refused BAD_ARG by the command's own rule, after the busy check. A frame of another row is not this row's. -/
def execUnknownCommand (opcode : Byte) (payload : List Byte) (s : State) : Host.Outcome State Fault Refusal :=
  if !suits opcode payload.length then .next (s.command fun s => s.reject .badArg)
  else if !formListed opcode payload then .next (s.gatedCommand fun s => s.reject .badArg)
  else .refused .otherRow

end Sys2Proof.Machine
end

