-- ==== Sys2Proof/Machine/Control.lean ====
section
/-! DEFINITION. The Control Unit's commands (chapter 7): the factory bad list, FORMAT and its completion, GO_ONLINE, the drain,
MAP_RESET and device reset. -/

namespace Sys2Proof.Machine

/-! ### The factory bad list (R136 to R138) -/

/-- R137: a name is in range: die 0 to 7 and block 0 to 1023. -/
def nameInRange (n : Byte × Half) : Bool := n.1.toNat < Config.maxDies && n.2.toNat < Config.maxBlocks

/-- R137: the names of a command taken in order: a name on the list merges, a new one is added, and at a new name that finds the list
full the command takes no more. It gives the list, the number added, and whether a name was refused. -/
def addNames : List (Byte × Half) → List BlockName → Nat → List BlockName × Nat × Bool
  | [], l, n => (l, n, false)
  | x :: xs, l, n =>
    let name : BlockName := ⟨x.1.toNat, x.2.toNat⟩
    if l.contains name then addNames xs l n
    else if l.length < Config.badListEntries then addNames xs (l ++ [name]) (n + 1)
    else (l, n, true)

/-- R137: MARK_BAD's own rule. -/
def State.markBad (s : State) (names : List (Byte × Half)) : Reply :=
  if names.isEmpty || decide (Config.maxNames < names.length) || !(names.all nameInRange) then s.reject .badArg
  else
    let (l, added, refused) := addNames names s.badList 0
    ⟨{ s with badList := l }, if refused then .listFull else .ok, byte added :: le16n l.length⟩

/-- MARK_BAD (R137). -/
def execMarkBad (names : List (Byte × Half)) (s : State) : Host.Outcome State Fault Refusal :=
  .next (s.gatedCommand fun s => s.markBad names)

/-- CLEAR_BAD_LIST (R138): the response carries the number of entries before. -/
def execClearBadList (s : State) : Host.Outcome State Fault Refusal :=
  .next (s.gatedCommand fun s => ⟨{ s with badList := [] }, .ok, le16n s.badList.length⟩)

/-! ### FORMAT (R139) -/

/-- R139: the ranges of FORMAT's arguments, CLASS_WIDTH 0 taken as the default. -/
def formatArgs (dieCount : Byte) (blocksPerDie logicalCount classWidth : Half) (minSpares : Byte) : Option FormatArgs :=
  let dc := dieCount.toNat
  let bpd := blocksPerDie.toNat
  let lc := logicalCount.toNat
  let m := minSpares.toNat
  if 1 ≤ dc ∧ dc ≤ Config.maxDies ∧ 64 ≤ bpd ∧ bpd ≤ Config.maxBlocks ∧ bpd % 64 = 0 ∧ 1 ≤ lc ∧ lc ≤ Config.maxLogical
      ∧ 1 ≤ m ∧ m ≤ 64 then
    some ⟨⟨dc, bpd, lc, if classWidth.toNat = 0 then Config.defaultClassWidth else classWidth.toNat⟩, m⟩
  else none

/-- R139, R155: FORMAT and LOAD_BEGIN are accepted in BLANK and OFFLINE. -/
def TableState.replaceable : TableState → Bool
  | .blank | .offline => true
  | .formatting | .loading | .online | .draining => false

/-- R139: FORMAT's own rule. -/
def State.startFormat (s : State) (args : Option FormatArgs) : Reply :=
  if !s.tableState.replaceable then s.reject .wrongState
  else if s.save.status = .running then s.reject .saving
  else
    match args with
    | none => s.reject .badArg
    | some a =>
      ⟨{ s.discardTable with tableState := .formatting, busy := .format a }, .busy, busyPayload (.format a) true⟩

/-- FORMAT (R139). -/
def execFormat (dieCount : Byte) (blocksPerDie logicalCount classWidth : Half) (minSpares : Byte) (s : State) :
    Host.Outcome State Fault Refusal :=
  .next (s.gatedCommand fun s => s.startFormat (formatArgs dieCount blocksPerDie logicalCount classWidth minSpares))

/-! ### Building a table (R141, R142) -/

/-- R8, R13: a FIXED record. -/
def fixedRecord : PhysRecord := ⟨⟨.fixed, 0, none, none⟩, none, 0⟩

/-- R20: how many blocks of a list each class counts, for the classes 0 to 62; `last` is the count of index 63. -/
def histogramOf (f : PhysRecord → Option Nat) (blocks : List PhysRecord) (last : Nat) : List Nat :=
  (List.range (Config.maxClass + 1)).map (fun c => blocks.countP fun r => f r == some c) ++ [last]

/-- R20, R38, R41: what is kept for a die, from its records, lists and initial reserve (the reserve itself when none is given). -/
def Die.build (g : Geometry) (warn d : Nat) (blocks : List PhysRecord) (spares eraseQueue rescue : List Nat)
    (initial : Option Int) : Die :=
  let retired := blocks.countP fun r => r.state == .retired
  let reserve : Int := (g.blocksPerDie : Int) - 2 - retired - g.homed d
  { blocks := blocks
    wear := histogramOf (wearClass g.classWidth) blocks (blocks.countP fun r => r.state == .fixed)
    mapped := histogramOf (mappedClass g.classWidth) blocks 0
    spares := spares
    eraseQueue := eraseQueue
    retired := retired
    reserve := reserve
    initialReserve := initial.getD reserve
    health := healthOf warn reserve
    rescue := rescue }

/-- R140: whether a block is on the factory bad list. -/
def isBad (bad : List BlockName) (d b : Nat) : Bool := bad.contains ⟨d, b⟩

/-- R140: the good non-FIXED blocks of die `d`, in ascending index. -/
def goodBlocks (g : Geometry) (bad : List BlockName) (d : Nat) : List Nat :=
  (List.range g.blocksPerDie).filter fun b => decide (2 ≤ b) && !isBad bad d b

/-- R140: the entry of lowest die and block that names a FIXED block of the geometry. -/
def fixedBadEntry (g : Geometry) (bad : List BlockName) : Option (Nat × Nat) :=
  (List.range g.dieCount).findSome? fun d =>
    if isBad bad d 0 then some (d, 0) else if isBad bad d 1 then some (d, 1) else none

/-- R140: the lowest die whose good non-FIXED blocks, less its homed count, are below MIN_SPARES. -/
def noRoomDie (a : FormatArgs) (bad : List BlockName) : Option Nat :=
  (List.range a.geometry.dieCount).find? fun d =>
    decide ((goodBlocks a.geometry bad d).length < a.geometry.homed d + a.minSpares)

/-- R141: the records of die `d` over the block indexes given, `k` good blocks having been met: the first good blocks take the die's logical
blocks in ascending L, the rest are SPARE. -/
def formatBlocks (g : Geometry) (bad : List BlockName) (d : Nat) : List Nat → Nat → List PhysRecord
  | [], _ => []
  | b :: bs, k =>
    if b < 2 then fixedRecord :: formatBlocks g bad d bs k
    else if isBad bad d b then ⟨⟨.retired, 0, none, some .factory⟩, none, 0⟩ :: formatBlocks g bad d bs k
    else if k < g.homed d then ⟨⟨.mapped, 0, none, none⟩, some (d + k * g.dieCount), 0⟩ :: formatBlocks g bad d bs (k + 1)
    else ⟨⟨.spare, 0, none, none⟩, none, 0⟩ :: formatBlocks g bad d bs (k + 1)

/-- R141, R142: die `d` of a formatted table. -/
def formatDie (g : Geometry) (bad : List BlockName) (warn d : Nat) : Die :=
  Die.build g warn d (formatBlocks g bad d (List.range g.blocksPerDie) 0) ((goodBlocks g bad d).drop (g.homed d)) [] [] none

/-- R141: the table of a format that passes its checks. -/
def formatTable (g : Geometry) (bad : List BlockName) (warn : Nat) : Table :=
  let good := (List.range g.dieCount).map (goodBlocks g bad)
  { geometry := g
    logical := (List.range g.logicalCount).map fun l =>
      ⟨⟨(good[g.home l]?).bind fun bs => bs[l / g.dieCount]?, 0#16, .none⟩, none, false⟩
    dies := (List.range g.dieCount).map (formatDie g bad warn) }

/-- R142, R162: the lease table, the relocation table, the waiting list and every port's order slots are empty. -/
def State.clearWork (s : State) : State :=
  { s with
    leases := Vector.replicate 64 none
    relocations := Vector.replicate 8 none
    waiting := []
    ports := #v[{ s.ports[0] with orders := [] }, { s.ports[1] with orders := [] }, { s.ports[2] with orders := [] },
      { s.ports[3] with orders := [] }] }

/-- R142, R162: a table comes into being: OFFLINE, with no work under way, DIE_HEALTH raised when a die is LOW or EXHAUSTED, the
operation ended with its result and OP_DONE. -/
def State.createTable (s : State) (t : Table) (generation : Word) (result : LastResult) : State :=
  ((({ s with table := some t, generation := generation, tableState := .offline, busy := .none, lastResult := result }).clearWork).raiseIf
    t.alarm .dieHealth).raise .opDone

/-- R140, R161: an operation fails: the table state is BLANK and no table exists. -/
def State.failTable (s : State) (result : LastResult) : State :=
  ({ s.discardTable with tableState := .blank, busy := .none, lastResult := result }).raise .opDone

/-- R140, R142: the completion of a FORMAT with these arguments. -/
def State.completeFormat (s : State) (a : FormatArgs) : State :=
  match fixedBadEntry a.geometry s.badList with
  | some (d, b) => s.failTable (.fixedBad d b)
  | none =>
    match noRoomDie a s.badList with
    | some d => s.failTable (.noRoom d)
    | none =>
      let applying := s.badList.countP fun n => decide (n.die < a.geometry.dieCount) && decide (n.block < a.geometry.blocksPerDie)
      s.createTable (formatTable a.geometry s.badList s.params.spareWarn) 0#32
        (.formatOk applying (s.badList.length - applying))

/-- FORMAT_COMPLETION (R140 to R142): it happens while a FORMAT runs. -/
def execFormatCompletion (s : State) : Host.Outcome State Fault Refusal :=
  .next (match s.busy with
    | .format a => s.completeFormat a
    | .none | .loadEnd => s)

/-! ### GO_ONLINE (R143) -/

/-- R143: the table enters ONLINE: every die of the table is triggered and every port is to be considered. -/
def State.enterOnline (s : State) : State :=
  let s := { s with tableState := .online }
  let s := (List.range s.geometry.dieCount).foldl (fun s d => s.triggerDie d) s
  (((s.consider 0).consider 1).consider 2).consider 3

/-- R143: GO_ONLINE's own rule. -/
def State.goOnline (s : State) : Reply := if s.tableState = .offline then ⟨s.enterOnline, .ok, []⟩ else s.reject .wrongState

/-- GO_ONLINE (R143). -/
def execGoOnline (s : State) : Host.Outcome State Fault Refusal := .next (s.gatedCommand State.goOnline)

/-! ### The drain (R144 to R146) -/

/-- R144: no lease is open and no order is issued. -/
def State.drained (s : State) : Bool := s.openLeases == 0 && s.ports.toList.all fun x => x.orders.isEmpty

/-- R144: the drain check: a complete drain makes the table OFFLINE and raises DRAINED. -/
def State.checkDrain (s : State) : State :=
  if s.tableState = .draining ∧ s.drained then
    ({ s with tableState := .offline, drainKind := .none, drainCheckDue := false }).raise .drained
  else s

/-- DRAIN_CHECK (R144): the check owed after a change that frees a lease or an order, or loses a port, while DRAINING. -/
def execDrainCheck (s : State) : Host.Outcome State Fault Refusal :=
  .next (if s.drainCheckDue then { s with drainCheckDue := false }.checkDrain else s)

/-- R79: whether the relocation of die `d` is in WAIT_SLOT. -/
def State.isWaiting (s : State) (d : Nat) : Bool := (s.relocation? d).any fun r => r.state == .waitSlot

/-- R95, R145: a drain starts: DRAINING, of this kind, with every relocation in WAIT_SLOT dropped. -/
def Change.startDrain (c : Change) : Change :=
  let c := c.on fun s => { s with tableState := .draining, drainKind := .plain }
  (List.range Config.maxDies).foldl (fun c d => if c.s.isWaiting d then c.dropWaiting d true else c) c

/-- R145: GO_OFFLINE's own rule. -/
def State.goOffline (s : State) : Reply :=
  if s.tableState = .online then
    let t := s.begin.startDrain.finish.checkDrain
    ⟨t, .ok, [t.tableState.code]⟩
  else s.reject .wrongState

/-- GO_OFFLINE (R145). -/
def execGoOffline (s : State) : Host.Outcome State Fault Refusal := .next (s.gatedCommand State.goOffline)

/-- R70: every open lease is revoked with a notice, in ascending lease id. -/
def Change.revokeAll (c : Change) : Change :=
  (List.range Config.leaseEntries).foldl (fun c id => c.endLeaseWithNotice .revoked id) c

/-- R96: every relocation in COPYING becomes CANCELLED. -/
def Change.cancelAll (c : Change) : Change := (List.range Config.maxDies).foldl (fun c d => c.cancelCopying d true) c

/-- R146: the change of a forced drain, before its drain check. -/
def State.forceDrain (s : State) : State :=
  let c := if s.tableState = .online then s.begin.startDrain else s.begin
  (c.on fun s => { s with drainKind := .forced }).revokeAll.cancelAll.finish

/-- R146: GO_OFFLINE with FORCE: its own rule. -/
def State.goOfflineForce (s : State) : Reply :=
  if s.tableState = .online ∨ s.tableState = .draining then
    let t := s.forceDrain.checkDrain
    ⟨t, .ok, [t.tableState.code]⟩
  else s.reject .wrongState

/-- GO_OFFLINE_FORCE (R146). -/
def execGoOfflineForce (s : State) : Host.Outcome State Fault Refusal := .next (s.gatedCommand State.goOfflineForce)

/-! ### MAP_RESET (R148, R129) and device reset (R150) -/

/-- R114, R129: a port at MAP_RESET: its slots are emptied and its last erase die is none; an UP port is sent the notice, or, with its
queue full, its pending lease notices give way to the flag. -/
def Port.mapReset (x : Port) : Port :=
  let x := { x with orders := [], lastEraseDie := none }
  if x.link = .up then
    if x.outgoing.length < Config.outgoingDepth then { x with outgoing := x.outgoing ++ [mapResetNotice] }
    else { x with notices := [], mapResetFlag := true }
  else x

/-- R163: MAP_RESET ends a receiving load: its records, sum and named marks go; words received, size and first fault stay. -/
def LoadStream.mapReset (l : LoadStream) : LoadStream :=
  if l.phase = .idle then l else { l with phase := .idle, sum := 0#32, named := [], build := .empty }

/-- R165, R170: a running save ends with this status, its shadow entries freed; size, position and header are kept. -/
def SaveSweep.stop (v : SaveSweep) (status : SaveStatus) : SaveSweep :=
  if v.status = .running then { v with status := status, shadow := [] } else v

/-- R148: everything that belongs to the table is dropped as it stands. -/
def State.mapReset (s : State) : State :=
  { s.discardTable with
    tableState := .blank
    drainKind := .none
    drainCheckDue := false
    leases := Vector.replicate 64 none
    relocations := Vector.replicate 8 none
    waiting := []
    ports := #v[s.ports[0].mapReset, s.ports[1].mapReset, s.ports[2].mapReset, s.ports[3].mapReset]
    load := s.load.mapReset
    save := s.save.stop .aborted }

/-- MAP_RESET (R148). -/
def execMapReset (s : State) : Host.Outcome State Fault Refusal := .next (s.gatedCommand fun s => ⟨s.mapReset, .ok, []⟩)

/-- DEVICE_RESET (R150): every item of state takes its initial value; the commands that wait are not the part's. -/
def execDeviceReset (s : State) : Host.Outcome State Fault Refusal := .next { State.reset with pending := s.pending }

end Sys2Proof.Machine
end

