-- ==== Sys2Proof/Machine/Images.lean ====
section
/-! DEFINITION. The Image Engine's commands (chapter 8): loading and its completion, saving and its end. -/

namespace Sys2Proof.Machine

/-! ### The checks of a load's words (R157, R158) -/

/-- R157: the fault of a header word, or a record word of the image, taken as word `i`. -/
def LoadStream.headerFault (l : LoadStream) (i : Nat) (w : Word) : Option LoadFault :=
  let g := l.build.geometry
  match i with
  | 0 => if w = Config.magic then none else some .magic
  | 1 => if w = Config.imageVersion then none else some .version
  | 2 =>
    let dc := (w.extractLsb' 0 16).toNat
    let bpd := (w.extractLsb' 16 16).toNat
    if 1 ≤ dc ∧ dc ≤ Config.maxDies ∧ 64 ≤ bpd ∧ bpd ≤ Config.maxBlocks ∧ bpd % 64 = 0 then none else some .geometry
  | 3 =>
    let g := { g with logicalCount := w.toNat }
    if 1 ≤ w.toNat ∧ w.toNat ≤ Config.maxLogical ∧ g.homed 0 ≤ g.blocksPerDie - 2 then none else some .geometry
  | 4 => if 1 ≤ w.toNat ∧ w.toNat ≤ 65535 then none else some .geometry
  | _ => none

/-- R159: a header word that passes is recorded; the initial reserve of a die at or beyond DIE_COUNT is not (R190). -/
def ImageBuild.recordHeader (b : ImageBuild) (i : Nat) (w : Word) : ImageBuild :=
  match i with
  | 0 | 1 | 6 | 7 => b
  | 2 =>
    { b with geometry := { b.geometry with
        dieCount := (w.extractLsb' 0 16).toNat
        blocksPerDie := (w.extractLsb' 16 16).toNat } }
  | 3 => { b with geometry := { b.geometry with logicalCount := w.toNat } }
  | 4 => { b with geometry := { b.geometry with classWidth := w.toNat } }
  | 5 => { b with generation := w }
  | _ => if i < 8 + b.geometry.dieCount then { b with initialReserves := b.initialReserves ++ [w.toInt] } else b

/-- R153: the fields a logical record's word gives; bits 26 to 29 are not read (R190). -/
def logicalOfWord (w : Word) : LogicalFields :=
  let version := w.extractLsb' 0 16
  if w.extractLsb' 31 1 = 1#1 then
    ⟨some (w.extractLsb' 16 10).toNat, version, if w.extractLsb' 30 1 = 1#1 then .unreadable else .none⟩
  else ⟨none, version, .none⟩

/-- R158: the fault of the word of logical record `l`: RANGE, then DUPLICATE. -/
def LoadStream.logicalFault (x : LoadStream) (l : Nat) (r : LogicalFields) : Option LoadFault :=
  match r.block with
  | none => none
  | some b =>
    if b < 2 ∨ x.build.geometry.blocksPerDie ≤ b then some .range
    else if x.named.contains (x.build.geometry.home l, b) then some .duplicate
    else none

/-- R158: whether a weak mark suits a physical state. -/
def weakSuits (state : PhysState) : Option WeakMark → Bool
  | none => true
  | some _ =>
    match state with
    | .fixed | .spare | .allocated => false
    | .mapped | .stale | .erasing | .retired => true

/-- R153, R158: the fields the word of a physical record of block `b` gives, or none when it fails with STATE_CODE; the count field of a
FIXED record is not read (R190). -/
def physicalOfWord (b : Nat) (w : Word) : Option PhysFields :=
  match PhysState.ofCode (w.extractLsb' 24 3), weakOfCode (w.extractLsb' 27 2), causeOfCode (w.extractLsb' 29 3) with
  | some state, some weak, some cause =>
    if (state == .fixed) == decide (b < 2) && weakSuits state weak && cause.isSome == (state == .retired) then
      some ⟨state, if state = .fixed then 0 else (w.extractLsb' 0 24).toNat, weak, cause⟩
    else none
  | _, _, _ => none

/-! ### Taking the words (R156) -/

/-- R156: words received, saturating. -/
def LoadStream.count (x : LoadStream) : LoadStream := { x with received := min (x.received + 1) 65535 }

/-- R156: a fault found at word `i` is kept. -/
def LoadStream.keep (x : LoadStream) (fault : LoadFault) (i : Nat) : LoadStream := { x with fault := some (fault, i) }

/-- R157, R159: a header word is checked and recorded; word 3 gives the load size. -/
def LoadStream.takeHeader (x : LoadStream) (i : Nat) (w : Word) : LoadStream :=
  match x.headerFault i w with
  | some fault => x.keep fault i
  | none =>
    let build := x.build.recordHeader i w
    { x with build := build, size := if i = 3 then some build.geometry.imageSize else x.size }

/-- R158, R159: the word of logical record `l` is checked and recorded, and the block it names is marked. -/
def LoadStream.takeLogical (x : LoadStream) (i l : Nat) (w : Word) : LoadStream :=
  let r := logicalOfWord w
  match x.logicalFault l r with
  | some fault => x.keep fault i
  | none =>
    { x with
      build := { x.build with logical := x.build.logical ++ [r] }
      named := match r.block with
        | none => x.named
        | some b => x.named ++ [(x.build.geometry.home l, b)] }

/-- R158, R159: the word of a physical record of block `b` is checked and recorded. -/
def LoadStream.takePhysical (x : LoadStream) (i b : Nat) (w : Word) : LoadStream :=
  match physicalOfWord b w with
  | none => x.keep .stateCode i
  | some r => { x with build := { x.build with physical := x.build.physical ++ [r] } }

/-- R156 to R159: a word taken as word `i` while no fault has been kept: it is summed, checked for its place and recorded; the check word
is only summed; a word at or beyond the load size is LENGTH. -/
def LoadStream.takeWord (x : LoadStream) (w : Word) : LoadStream :=
  let i := x.received
  if x.fault.isSome then x.count
  else if x.size.any fun n => decide (n ≤ i) then (x.keep .length i).count
  else
    let g := x.build.geometry
    let y := { x with sum := x.sum + w }
    (if i < Config.headerWords then y.takeHeader i w
     else if i < Config.headerWords + g.logicalCount then y.takeLogical i (i - Config.headerWords) w
     else if i + 1 < g.imageSize then y.takePhysical i ((i - Config.headerWords - g.logicalCount) % g.blocksPerDie) w
     else y).count

/-! ### LOAD_BEGIN, LOAD_DATA, LOAD_END (R155, R156, R160) -/

/-- R155: LOAD_BEGIN's own rule. -/
def State.loadBegin (s : State) : Reply :=
  if !s.tableState.replaceable then s.reject .wrongState
  else if s.save.status = .running then s.reject .saving
  else
    ⟨{ s.discardTable with
        tableState := .loading
        load := { phase := .receiving, received := 0, size := none, sum := 0#32, fault := none, named := [], build := .empty } },
      .ok, []⟩

/-- LOAD_BEGIN (R155). -/
def execLoadBegin (s : State) : Host.Outcome State Fault Refusal := .next (s.gatedCommand State.loadBegin)

/-- 10.2: a kept fault, as code and word index; 00 and 0 for none. -/
def faultBytes (f : Option (LoadFault × Nat)) : List Byte :=
  match f with
  | none => 0x00#8 :: le16n 0
  | some (fault, i) => fault.code :: le16n i

/-- R156: LOAD_DATA's own rule. -/
def State.loadData (s : State) (words : List Word) : Reply :=
  if s.load.phase ≠ .receiving then s.reject .wrongState
  else if words.isEmpty || decide (Config.maxChunk < words.length) then s.reject .badArg
  else
    let l := words.foldl LoadStream.takeWord s.load
    ⟨{ s with load := l }, .ok, le16n l.received ++ faultBytes l.fault⟩

/-- LOAD_DATA (R156 to R159). -/
def execLoadData (words : List Word) (s : State) : Host.Outcome State Fault Refusal :=
  .next (s.gatedCommand fun s => s.loadData words)

/-- R160: LOAD_END's own rule. -/
def State.loadEnd (s : State) : Reply :=
  if s.load.phase ≠ .receiving then s.reject .wrongState
  else ⟨{ s with load := { s.load with phase := .checking }, busy := .loadEnd }, .busy, busyPayload .loadEnd true⟩

/-- LOAD_END (R160). -/
def execLoadEnd (s : State) : Host.Outcome State Fault Refusal := .next (s.gatedCommand State.loadEnd)

/-! ### The end of a load (R160 to R162) -/

/-- R160: the first physical record, in stream order, that is MAPPED and not named, or named and not MAPPED. -/
def LoadStream.orphan (x : LoadStream) : Option Nat :=
  let g := x.build.geometry
  (List.range x.build.physical.length).find? fun k =>
    (x.build.physical[k]?).any fun r => (r.state == .mapped) != x.named.contains (k / g.blocksPerDie, k % g.blocksPerDie)

/-- R160: the fault of a load at LOAD_END: the fault kept, or SHORT, CHECK or ORPHAN. -/
def LoadStream.finalFault (x : LoadStream) : Option (LoadFault × Nat) :=
  match x.fault, x.size with
  | some f, _ => some f
  | none, none => some (.short, x.received)
  | none, some n =>
    if x.received < n then some (.short, x.received)
    else if x.sum ≠ 0#32 then some (.check, n - 1)
    else x.orphan.map fun k => (.orphan, Config.headerWords + x.build.geometry.logicalCount + k)

/-- R161, R162: the load stream after the end of a load. -/
def LoadStream.ended (x : LoadStream) : LoadStream := { x with phase := .idle, sum := 0#32, named := [], build := .empty }

/-- R162, steps 1 and 2: a physical record of the image brought to rest. -/
def PhysFields.rest (r : PhysFields) : PhysFields :=
  match r.state with
  | .allocated | .erasing | .stale =>
    match r.weak with
    | none => { r with state := .stale }
    | some w => { r with state := .retired, cause := some w.retireCause }
  | .fixed | .spare | .mapped | .retired => r

/-- R162: the logical block that names block `b` of die `d`. -/
def ImageBuild.ownerOf (x : ImageBuild) (d b : Nat) : Option Nat :=
  (List.range x.logical.length).find? fun l =>
    x.geometry.home l == d && (x.logical[l]?).any fun r => r.block == some b

/-- R162, step 1: block `b` of die `d` of the loaded table. -/
def ImageBuild.block (x : ImageBuild) (d b : Nat) : PhysRecord :=
  match x.physical[d * x.geometry.blocksPerDie + b]? with
  | none => fixedRecord
  | some r =>
    let r := r.rest
    ⟨r, if r.state = .mapped then x.ownerOf d b else none, 0⟩

/-- R162, step 4: the owners, in ascending L, of a die's weak MAPPED blocks. -/
def ImageBuild.weakOwners (x : ImageBuild) (d : Nat) (blocks : List PhysRecord) : List Nat :=
  (List.range x.logical.length).filter fun l =>
    x.geometry.home l == d && (x.logical[l]?).any fun r =>
      r.block.any fun b => (blocks[b]?).any fun p => p.state == .mapped && p.weak.isSome

/-- The indexes of a die's blocks that are in this state, ascending. -/
def blocksIn (blocks : List PhysRecord) (state : PhysState) : List Nat :=
  (List.range blocks.length).filter fun b => (blocks[b]?).any fun r => r.state == state

/-- R162, steps 3 to 5: die `d` of the loaded table. -/
def ImageBuild.die (x : ImageBuild) (warn d : Nat) : Die :=
  let blocks := (List.range x.geometry.blocksPerDie).map (x.block d)
  let count (b : Nat) : Nat := ((blocks[b]?).map (·.eraseCount)).getD 0
  Die.build x.geometry warn d blocks ((blocksIn blocks .spare).foldl (fun l b => insertSpare count b l) [])
    (blocksIn blocks .stale) ((x.weakOwners d blocks).take Config.rescueDepth) (x.initialReserves[d]?)

/-- R162: the table of a load that passes every check. -/
def ImageBuild.table (x : ImageBuild) (warn : Nat) : Table :=
  { geometry := x.geometry
    logical := x.logical.map fun r => ⟨r, none, false⟩
    dies := (List.range x.geometry.dieCount).map (x.die warn) }

/-- R162, step 4: whether some die has more weak MAPPED blocks than its rescue queue holds. -/
def ImageBuild.rescueOverflow (x : ImageBuild) : Bool :=
  (List.range x.geometry.dieCount).any fun d =>
    decide (Config.rescueDepth < (x.weakOwners d ((List.range x.geometry.blocksPerDie).map (x.block d))).length)

/-- R160 to R162: the completion of a LOAD_END. -/
def State.completeLoad (s : State) : State :=
  let t := { s with load := s.load.ended }
  match s.load.finalFault with
  | some (fault, i) => t.failTable (.loadFault fault i)
  | none =>
    let build := s.load.build
    (t.createTable (build.table s.params.spareWarn) build.generation (.loadOk build.generation)).raiseIf
      build.rescueOverflow .dataAtRisk

/-- LOAD_COMPLETION (R160 to R162): it happens while a load is CHECKING. -/
def execLoadCompletion (s : State) : Host.Outcome State Fault Refusal :=
  .next (if s.load.phase = .checking then s.completeLoad else s)

/-! ### Saving (R166, R167, R170) -/

/-- R152, R166: the 16 header words of an image of this table at this generation. -/
def Table.imageHeader (t : Table) (generation : Word) : List Word :=
  let g := t.geometry
  [Config.magic, Config.imageVersion, BitVec.ofNat 16 g.blocksPerDie ++ BitVec.ofNat 16 g.dieCount,
    BitVec.ofNat 32 g.logicalCount, BitVec.ofNat 32 g.classWidth, generation, 0#32, 0#32]
  ++ (List.range Config.maxDies).map fun d => BitVec.ofInt 32 (((t.dies[d]?).map (·.initialReserve)).getD 0)

/-- R166: SAVE_BEGIN's own rule. -/
def State.saveBegin (s : State) : Reply :=
  if !s.tableState.hasTable then s.reject .wrongState
  else if s.save.status = .running then s.reject .saving
  else
    match s.table with
    | none => s.reject .wrongState
    | some t =>
      let size := t.geometry.imageSize
      ⟨{ s with save := ⟨.running, size, 0, t.imageHeader s.generation, 0#32, []⟩ }, .ok, le16n size ++ le32 s.generation⟩

/-- SAVE_BEGIN (R166). -/
def execSaveBegin (s : State) : Host.Outcome State Fault Refusal := .next (s.gatedCommand State.saveBegin)

/-- R167: the contents delivered for logical record `l`: the shadow entry's, or the record's own. -/
def State.savedLogical (s : State) (l : Nat) : Word :=
  match s.save.shadow.find? (ShadowEntry.isLogical l) with
  | some (.logical _ r) => r.word
  | some (.physical _ _ _) | none => ((s.logical? l).map (·.toLogicalFields.word)).getD 0#32

/-- R167: the contents delivered for block `b` of die `d`: the shadow entry's, or the record's own. -/
def State.savedPhysical (s : State) (d b : Nat) : Word :=
  match s.save.shadow.find? (ShadowEntry.isPhysical d b) with
  | some (.physical _ _ r) => r.word
  | some (.logical _ _) | none => ((s.phys? d b).map (·.toPhysFields.word)).getD 0#32

/-- R167: word `k` of the image being saved, before the check word. -/
def State.saveWord (s : State) (k : Nat) : Word :=
  let g := s.geometry
  if k < Config.headerWords then s.save.header.getD k 0#32
  else if k < Config.headerWords + g.logicalCount then s.savedLogical (k - Config.headerWords)
  else
    let n := k - Config.headerWords - g.logicalCount
    s.savedPhysical (n / g.blocksPerDie) (n % g.blocksPerDie)

/-- R167, R170: one word is delivered: a header or record word is summed and its shadow entry freed; the check word, the two's complement
of the sum, completes the save. -/
def State.deliver (s : State) : Word × State :=
  let v := s.save
  if v.position + 1 < v.size then
    let w := s.saveWord v.position
    (w, { s with save := { v with
      position := v.position + 1
      sum := v.sum + w
      shadow := v.shadow.filter fun e => e.index s.geometry != v.position } })
  else (-v.sum, ({ s with save := { v with position := v.position + 1, status := .done, shadow := [] } }).raise .opDone)

/-- R167: as many words as asked, or fewer when fewer remain. -/
def State.deliverMany : Nat → State → List Word × State
  | 0, s => ([], s)
  | n + 1, s =>
    if s.save.position < s.save.size then
      let (w, s) := s.deliver
      let (ws, s) := s.deliverMany n
      (w :: ws, s)
    else ([], s)

/-- R167: SAVE_DATA's own rule. -/
def State.saveData (s : State) (count : Nat) : Reply :=
  if ¬(1 ≤ count ∧ count ≤ Config.maxChunk) then s.reject .badArg
  else if s.save.status ≠ .running then s.reject .wrongState
  else
    let (ws, s) := s.deliverMany count
    ⟨s, .ok, le16n s.save.position ++ ws.flatMap le32⟩

/-- SAVE_DATA (R167). -/
def execSaveData (count : Byte) (s : State) : Host.Outcome State Fault Refusal :=
  .next (s.gatedCommand fun s => s.saveData count.toNat)

/-- SAVE_ABORT (R170): the response says whether a save was ended. -/
def execSaveAbort (s : State) : Host.Outcome State Fault Refusal :=
  .next (s.gatedCommand fun s => ⟨{ s with save := s.save.stop .aborted }, .ok, [flag (s.save.status == .running)]⟩)

end Sys2Proof.Machine
end

