-- ==== Sys2Proof/Machine/Inquiries.lean ====
section
/-! DEFINITION. The Maintenance Interface's inquiries and parameter commands (chapter 9): IDENTIFY, GET_STATUS, ACK_ATTN, SET_PARAM,
GET_PARAM, TRANSLATE, READ_BLOCK, READ_SPARES, READ_HISTOGRAM and PORT_INFO. -/

namespace Sys2Proof.Machine

/-! ### IDENTIFY and GET_STATUS (R177, R183) -/

/-- R177, 10.2: the fixed values IDENTIFY returns. -/
def identifyPayload : List Byte :=
  le32 Config.identifier ++ [Config.revision, byte 4, byte Config.maxDies] ++ le16n Config.maxBlocks ++ le16n Config.maxLogical
    ++ [byte Config.leaseEntries, Config.imageVersion.extractLsb' 0 8, byte Config.maxChunk]

/-- IDENTIFY (R177). -/
def execIdentify (s : State) : Host.Outcome State Fault Refusal := .next (s.command fun s => ⟨s, .ok, identifyPayload⟩)

/-- R183: the worst health of any die; none while no table exists. -/
def State.worstHealth (s : State) : Option Health := s.table.map Table.worstHealth

/-- R183: whether the summary is ALARM. -/
def State.alarm (s : State) : Bool := s.table.any Table.alarm

/-- R183, 10.2.1: the payload of GET_STATUS. -/
def State.statusPayload (s : State) : List Byte :=
  [s.tableState.code, s.drainKind.code, s.busy.code] ++ s.lastResult.codes ++ le32 s.lastResult.first
    ++ le16 s.lastResult.second
    ++ [causeByte s.attention, causeByte s.params.attnMask, healthCode s.worstHealth, flag s.alarm] ++ le32 s.generation
    ++ [byte s.openLeases, s.save.status.code] ++ le16n s.save.position ++ le16n s.save.size
    ++ [byte s.save.shadow.length, s.load.phase.code] ++ le16n s.load.received ++ faultBytes s.load.fault

/-- GET_STATUS (R183). -/
def execGetStatus (s : State) : Host.Outcome State Fault Refusal := .next (s.command fun s => ⟨s, .ok, s.statusPayload⟩)

/-! ### ACK_ATTN (R181) -/

/-- R181: ACK_ATTN's own rule: the named causes leave the pending set. -/
def State.ackAttn (s : State) (causes : Byte) : Reply :=
  match causesOfByte causes with
  | none => s.reject .badArg
  | some set =>
    let pending := s.attention &&& ~~~set
    ⟨{ s with attention := pending }, .ok, [causeByte pending]⟩

/-- ACK_ATTN (R181). -/
def execAckAttn (causes : Byte) (s : State) : Host.Outcome State Fault Refusal := .next (s.command fun s => s.ackAttn causes)

/-! ### Parameters (R178, R179) -/

/-- Section 9.4, 10.2: a parameter, with its index where it has one. -/
inductive Param where
  | levelEnable | levelGap | spareWarn | leaseLimit | orderLimit
  | leaseQuota (p : PortId)
  | diePort (d : SlotId)
  | attnMask
deriving DecidableEq, Repr

/-- R178, steps 1 and 2: the parameter a code and index name. -/
def Param.ofCode (code index : Byte) : Option Param :=
  match code.toNat with
  | 0x01 => some .levelEnable
  | 0x02 => some .levelGap
  | 0x03 => some .spareWarn
  | 0x04 => some .leaseLimit
  | 0x05 => some .orderLimit
  | 0x06 => if h : index.toNat < 4 then some (.leaseQuota ⟨index.toNat, h⟩) else none
  | 0x07 => if h : index.toNat < 8 then some (.diePort ⟨index.toNat, h⟩) else none
  | 0x08 => some .attnMask
  | _ => none

/-- Section 9.4: whether a value lies in the parameter's range. -/
def Param.inRange (v : Nat) : Param → Bool
  | .levelEnable => v ≤ 1
  | .levelGap => 1 ≤ v && v ≤ 16
  | .spareWarn => v ≤ 64
  | .leaseLimit => v ≤ 65535
  | .orderLimit => 1 ≤ v && v ≤ 65535
  | .leaseQuota _ => 1 ≤ v && v ≤ 64
  | .diePort _ => v ≤ 3
  | .attnMask => v ≤ 31

/-- Section 9.4: the value a parameter holds. -/
def Params.get (x : Params) : Param → Word
  | .levelEnable => BitVec.ofNat 32 x.levelEnable.toNat
  | .levelGap => BitVec.ofNat 32 x.levelGap
  | .spareWarn => BitVec.ofNat 32 x.spareWarn
  | .leaseLimit => BitVec.ofNat 32 x.leaseLimit
  | .orderLimit => BitVec.ofNat 32 x.orderLimit
  | .leaseQuota p => BitVec.ofNat 32 x.leaseQuota[p]
  | .diePort d => BitVec.ofNat 32 x.diePort[d].val
  | .attnMask => BitVec.ofNat 32 x.attnMask.toNat

/-- Section 9.4: a parameter takes a value. -/
def Params.put (x : Params) (v : Nat) : Param → Params
  | .levelEnable => { x with levelEnable := v == 1 }
  | .levelGap => { x with levelGap := v }
  | .spareWarn => { x with spareWarn := v }
  | .leaseLimit => { x with leaseLimit := v }
  | .orderLimit => { x with orderLimit := v }
  | .leaseQuota p => { x with leaseQuota := x.leaseQuota.set p v }
  | .diePort d => { x with diePort := x.diePort.set d (Fin.ofNat 4 v) }
  | .attnMask => { x with attnMask := BitVec.ofNat 5 v }

/-- R39: the health of every die of the table is computed again. -/
def State.recomputeAll (s : State) : State :=
  (List.range s.geometry.dieCount).foldl (fun s d => s.recomputeHealth d) s

/-- R178: whether the table state admits the parameter's setting: DIE_PORT only in BLANK and OFFLINE. -/
def State.admits (s : State) : Param → Bool
  | .diePort _ => s.tableState.replaceable
  | .levelEnable | .levelGap | .spareWarn | .leaseLimit | .orderLimit | .leaseQuota _ | .attnMask => true

/-- R178: a parameter is set; SPARE_WARN makes the healths be computed again. -/
def State.putParam (s : State) (x : Param) (v : Nat) : State :=
  let s := { s with params := s.params.put v x }
  if x = .spareWarn then s.recomputeAll else s

/-- R178: SET_PARAM's own rule. -/
def State.setParam (s : State) (code index : Byte) (value : Word) : Reply :=
  match Param.ofCode code index with
  | none => s.reject .badArg
  | some x =>
    if !x.inRange value.toNat then s.reject .badArg
    else if !s.admits x then s.reject .wrongState
    else
      let t := s.putParam x value.toNat
      ⟨t, .ok, code :: index :: le32 (t.params.get x)⟩

/-- SET_PARAM (R178). -/
def execSetParam (code index : Byte) (value : Word) (s : State) : Host.Outcome State Fault Refusal :=
  .next (s.gatedCommand fun s => s.setParam code index value)

/-- R179: GET_PARAM's own rule. -/
def State.getParam (s : State) (code index : Byte) : Reply :=
  match Param.ofCode code index with
  | none => s.reject .badArg
  | some x => ⟨s, .ok, code :: index :: le32 (s.params.get x)⟩

/-- GET_PARAM (R179). -/
def execGetParam (code index : Byte) (s : State) : Host.Outcome State Fault Refusal :=
  .next (s.gatedCommand fun s => s.getParam code index)

/-! ### TRANSLATE (R184, 10.2.2) -/

/-- 10.2.2: the current block's part of TRANSLATE: die, index, erase count, class, readers and weak code. -/
def State.translateBlock (s : State) (l : Nat) (r : LogicalRecord) : List Byte :=
  match r.block.bind fun b => (s.phys? (s.home l) b).map fun x => (b, x) with
  | none => [0#8] ++ le16n 0 ++ le32n 0 ++ [0#8, 0#8, 0#8]
  | some (b, x) =>
    [byte (s.home l)] ++ le16n b ++ le32n x.eraseCount
      ++ [byte (classOf s.geometry.classWidth x.eraseCount), byte x.readers, 0#6 ++ weakCode x.weak]

/-- 10.2.2: the write lease's part of TRANSLATE: presence, id, port, destination and attempt. -/
def State.translateLease (s : State) (l : Nat) (r : LogicalRecord) : List Byte :=
  match r.writeLease.bind fun id => (s.lease? id).map fun x => (id, x) with
  | none => [0#8, 0#8, 0#8, 0#8] ++ le16n 0 ++ [0#8]
  | some (id, x) =>
    match x.body with
    | .write _ destination attempt =>
      [1#8, byte id, byte x.port.val, byte (s.home l)] ++ le16n destination ++ [byte attempt]
    | .read _ => [0#8, 0#8, 0#8, 0#8] ++ le16n 0 ++ [0#8]

/-- 10.2.2: the relocation's part of TRANSLATE, reported while the relocation link is set: presence, kind, state, source, destination and
attempt. -/
def State.translateRelocation (s : State) (l : Nat) (r : LogicalRecord) : List Byte :=
  match if r.relocating then s.relocation? (s.home l) else none with
  | none => [0#8, 0#8, 0#8] ++ le16n 0 ++ le16n 0 ++ [0#8]
  | some x => [1#8, x.kind.code, x.state.code] ++ le16n x.source ++ le16n x.destination ++ [byte x.attempt]

/-- R184: the payload of TRANSLATE. -/
def State.translatePayload (s : State) (l : Nat) (r : LogicalRecord) : List Byte :=
  [flag r.block.isSome] ++ le16 r.version ++ [0#7 ++ r.risk.code] ++ s.translateBlock l r
    ++ [flag ((s.rescue (s.home l)).contains l)] ++ s.translateLease l r ++ s.translateRelocation l r

/-- R184: TRANSLATE's own rule. -/
def State.translate (s : State) (l : Nat) : Reply :=
  if !s.tableState.hasTable then s.reject .wrongState
  else
    match s.logical? l with
    | none => s.reject .badArg
    | some r => ⟨s, .ok, s.translatePayload l r⟩

/-- TRANSLATE (R184). -/
def execTranslate (l : Half) (s : State) : Host.Outcome State Fault Refusal := .next (s.gatedCommand fun s => s.translate l.toNat)

/-! ### READ_BLOCK (R185, 10.2.3) -/

/-- R185: the write lease whose destination is block `b` of die `d`. -/
def State.writeLeaseOn (s : State) (d b : Nat) : Option Nat :=
  (List.range Config.leaseEntries).find? fun id =>
    (s.lease? id).any fun l =>
      match l.body with
      | .write logical destination _ => s.home logical == d && destination == b
      | .read _ => false

/-- R185: whether block `b` is the destination of die `d`'s relocation. -/
def State.isRelocationDestination (s : State) (d b : Nat) : Bool := (s.relocation? d).any fun r => r.destination == b

/-- R185: the port whose ERASE order names block `b` of die `d`. -/
def State.erasingPort (s : State) (d b : Nat) : Option Nat :=
  (s.ports.toList).findIdx? fun x => x.orders.any fun o => o.die == d && o.work == .erase b

/-- R185: what an ALLOCATED block is the destination of: 00 none, 01 a write lease with its id, 02 the die's relocation. -/
def State.destinationBytes (s : State) (d b : Nat) : List Byte :=
  match s.writeLeaseOn d b with
  | some id => [1#8, byte id]
  | none => if s.isRelocationDestination d b then [2#8, 0#8] else [0#8, 0#8]

/-- R185, 10.2.3: the payload of READ_BLOCK: each field the block's state holds, 0 for the others. -/
def State.blockPayload (s : State) (d b : Nat) (r : PhysRecord) : List Byte :=
  let wear := le32n r.eraseCount ++ [byte (classOf s.geometry.classWidth r.eraseCount)]
  let weak : Byte := 0#6 ++ weakCode r.weak
  let state : Byte := 0#5 ++ r.state.code
  match r.state with
  | .fixed => [state] ++ le32n 0 ++ [0#8] ++ le16n 0 ++ [0#8, 0#8, 0#8, 0#8, 0#8, 0#8, 0#8]
  | .spare => [state] ++ wear ++ le16n 0 ++ [0#8, 0#8, 0#8, 0#8, 0#8, 0#8, 0#8]
  | .allocated => [state] ++ wear ++ le16n 0 ++ [0#8, 0#8, 0#8, 0#8] ++ s.destinationBytes d b ++ [0#8]
  | .mapped => [state] ++ wear ++ le16n (r.owner.getD 0) ++ [byte r.readers, weak, 0#8, 0#8, 0#8, 0#8, 0#8]
  | .stale =>
    [state] ++ wear ++ le16n 0
      ++ [byte r.readers, weak, 0#8, flag (((s.die? d).map (·.eraseQueue)).any fun q => q.contains b), 0#8, 0#8, 0#8]
  | .erasing => [state] ++ wear ++ le16n 0 ++ [0#8, weak, 0#8, 0#8, 0#8, 0#8, byte ((s.erasingPort d b).getD 0)]
  | .retired => [state] ++ wear ++ le16n 0 ++ [0#8, weak, 0#5 ++ causeCode r.cause, 0#8, 0#8, 0#8, 0#8]

/-- R185: READ_BLOCK's own rule. -/
def State.readBlock (s : State) (d b : Nat) : Reply :=
  if !s.tableState.hasTable then s.reject .wrongState
  else
    match s.phys? d b with
    | none => s.reject .badArg
    | some r => ⟨s, .ok, s.blockPayload d b r⟩

/-- READ_BLOCK (R185). -/
def execReadBlock (die : Byte) (block : Half) (s : State) : Host.Outcome State Fault Refusal :=
  .next (s.gatedCommand fun s => s.readBlock die.toNat block.toNat)

/-! ### READ_SPARES and READ_HISTOGRAM (R186, R187) -/

/-- R186, 10.2: the payload of READ_SPARES. -/
def Die.sparesPayload (x : Die) : List Byte :=
  le32i x.initialReserve ++ le32i x.reserve ++ le16n x.spares.length ++ le16n x.eraseQueue.length ++ le16n x.retired
    ++ [healthCode (some x.health)]

/-- R186: READ_SPARES's own rule. -/
def State.readSpares (s : State) (d : Nat) : Reply :=
  if !s.tableState.hasTable then s.reject .wrongState
  else
    match s.die? d with
    | none => s.reject .badArg
    | some x => ⟨s, .ok, x.sparesPayload⟩

/-- READ_SPARES (R186). -/
def execReadSpares (die : Byte) (s : State) : Host.Outcome State Fault Refusal :=
  .next (s.gatedCommand fun s => s.readSpares die.toNat)

/-- R187: the histogram a selector names: 00 wear, 01 mapped. -/
def Die.histogram (x : Die) (selector : Nat) : Option (List Nat) :=
  match selector with
  | 0x00 => some x.wear
  | 0x01 => some x.mapped
  | _ => none

/-- R187: READ_HISTOGRAM's own rule. -/
def State.readHistogram (s : State) (d selector : Nat) : Reply :=
  if !s.tableState.hasTable then s.reject .wrongState
  else
    match (s.die? d).bind fun x => x.histogram selector with
    | none => s.reject .badArg
    | some h => ⟨s, .ok, h.flatMap le16n⟩

/-- READ_HISTOGRAM (R187). -/
def execReadHistogram (die selector : Byte) (s : State) : Host.Outcome State Fault Refusal :=
  .next (s.gatedCommand fun s => s.readHistogram die.toNat selector.toNat)

/-! ### PORT_INFO (R134, 10.2.4) -/

/-- 10.2.4: the eight bytes of an issued order. -/
def Order.bytes (o : Order) : List Byte :=
  [o.work.code, o.tag, o.epoch, byte o.die] ++ le16n o.work.first ++ le16n o.work.second

/-- 10.2.4: the dies of the table a port owns, bit d for die d. -/
def State.ownedBits (s : State) (p : PortId) : Byte :=
  (s.ownedDies p).foldl (fun b d => b ||| (1#8 <<< d)) 0#8

/-- R134, 10.2.4: the payload of PORT_INFO for port `p`. -/
def State.portPayload (s : State) (p : PortId) : List Byte :=
  let x := s.ports[p]
  let erases := x.orders.countP fun o => o.work.code == 0x00#8
  [x.link.code, x.epoch, x.lossCause.code, byte x.credits, byte x.fifo.length, byte x.outgoing.length, byte x.notices.length,
    flag x.mapResetFlag, byte x.groupSize] ++ le16n x.frameErrors ++ le16n x.overruns ++ le16n x.discards
    ++ [byte (s.leasesOf p), byte s.params.leaseQuota[p], byte erases, byte (x.orders.length - erases), x.tagCounter, s.ownedBits p]
    ++ x.orders.flatMap Order.bytes

/-- R134: a port number of a maintenance command, 0 to 3. -/
def portOfByte (b : Byte) : Option PortId := if h : b.toNat < 4 then some ⟨b.toNat, h⟩ else none

/-- R134: PORT_INFO's own rule. -/
def State.portInfo (s : State) (port : Byte) : Reply :=
  match portOfByte port with
  | none => s.reject .badArg
  | some p => ⟨s, .ok, s.portPayload p⟩

/-- PORT_INFO (R134). -/
def execPortInfo (port : Byte) (s : State) : Host.Outcome State Fault Refusal := .next (s.gatedCommand fun s => s.portInfo port)

end Sys2Proof.Machine
end

