-- ==== Sys2Proof/Machine/Leases.lean ====
section
/-! DEFINITION. The Lease Unit's commands (chapter 3): OPEN_READ, OPEN_WRITE, COMMIT, RELEASE, RENEW, DISCARD and lease expiry. -/

namespace Sys2Proof.Machine

/-! ### Checks shared by the requests -/

/-- R46: which limit refuses a grant to port `p`, if one does. -/
inductive LeaseLimit where
  | quota | table
deriving DecidableEq, Repr

/-- R46: the lease id a grant to port `p` takes, the lowest free one; or the limit met: the port's quota first, then the table. -/
def State.grantId (s : State) (p : PortId) : Except LeaseLimit Nat :=
  if s.params.leaseQuota[p] ≤ s.leasesOf p then .error .quota
  else
    match s.freeLease with
    | none => .error .table
    | some id => .ok id

/-- 10.1.4: the word of a LEASE_FULL answer: 00 QUOTA, 01 TABLE. -/
def LeaseLimit.word : LeaseLimit → Word
  | .quota => fieldWord 0x00#8 0#8 0#16
  | .table => fieldWord 0x01#8 0#8 0#16

/-- R60, R68: the answer LOCKED, carrying the port that holds write lease `id`. -/
def State.refuseLocked (s : State) (p : PortId) (f : Frame) (id : Nat) : State :=
  s.answer p f .locked Config.noLease [fieldWord (byte (((s.lease? id).map (·.port.val)).getD 0)) 0#8 0#16]

/-- R47: the open lease with this id whose port and tag are the request's. -/
def State.matchLease (s : State) (p : PortId) (id : Nat) (tag : Byte) : Option Lease :=
  (s.lease? id).filter fun l => l.port == p && l.tag == tag

/-- R47: COMMIT, RELEASE and RENEW first check their lease id and match their lease; the answers to them name the lease id. -/
def State.withLease (s : State) (p : PortId) (f : Frame) (body : Nat → Lease → State) : State :=
  let id := f.byte0.toNat
  if Config.leaseEntries ≤ id then s.answer p f .badArg f.byte0 []
  else
    match s.matchLease p id f.tag with
    | none => s.answer p f .unknownLease f.byte0 []
    | some l => body id l

/-! ### OPEN_READ (R56 to R58) -/

/-- R57: the entries of a run of at most `n` logical blocks from `l` on, up to the first that is not MAPPED, with each one's risk. -/
def State.readRun (s : State) : Nat → Nat → List (ReadEntry × Risk)
  | _, 0 => []
  | l, n + 1 =>
    match s.logical? l with
    | none => []
    | some r =>
      match r.block with
      | none => []
      | some b => (⟨l, s.home l, b, r.version⟩, r.risk) :: s.readRun (l + 1) n

/-- R58: a list cut into pieces of `g` elements, the last with the remainder; `fuel` is at least the number of pieces. -/
def chunks {α : Type} (g : Nat) : Nat → List α → List (List α)
  | 0, _ => []
  | _, [] => []
  | fuel + 1, x :: xs => (x :: xs).take g :: chunks g fuel ((x :: xs).drop g)

/-- 10.1.4: one frame of a read answer: word 0, the first L and number of entries, the entry words, and what the last frame adds. -/
def readFrame (tag lease : Byte) (status : AnswerStatus) (entries : List (ReadEntry × Risk)) (tail : List Word) : OutFrame :=
  let first := ((entries.head?).map fun e => e.1.logical).getD 0
  answerFrame tag status RequestKind.openRead.code lease
    (runWord (BitVec.ofNat 16 first) (byte entries.length)
      :: entries.map (fun e => entryWord e.2 e.1.die e.1.block e.1.version) ++ tail)

/-- R58: the frames of a read answer: MORE on every frame but the last, whose status and extra words are given. -/
def readFrames (tag lease : Byte) (last : AnswerStatus) (tail : List Word) : List (List (ReadEntry × Risk)) → List OutFrame
  | [] => []
  | [c] => [readFrame tag lease last c tail]
  | c :: cs => readFrame tag lease .more c [] :: readFrames tag lease last tail cs

/-- R57, R58: the grant of a read of `n` logical blocks from `l` on, as lease `id`. -/
def State.grantRead (s : State) (p : PortId) (f : Frame) (id l n : Nat) : State :=
  let run := s.readRun l n
  let k := run.length
  let group := s.ports[p].group
  let status := if k = n then AnswerStatus.ok else .partialRun
  let tail := if k = n then [] else [runWord (BitVec.ofNat 16 (l + k)) (byte (n - k))]
  let c := run.foldl (fun c e => c.updatePhys e.1.die e.1.block fun r => { r with readers := r.readers + 1 }) s.begin
  let t := (c.on fun t => t.setLease id (some ⟨p, f.tag, .read (run.map (·.1)), t.newExpiry⟩)).finish
  (readFrames f.tag (byte id) status tail (chunks group k run)).foldl (fun t frame => t.place p frame) t

/-- R56: OPEN_READ as served. -/
def State.serveOpenRead (p : PortId) (f : Frame) (s : State) : State :=
  let l := f.low.toNat
  let n := f.byte2.toNat
  if s.tableState ≠ .online then s.refuse p f s.tableState.refusal
  else if ¬(1 ≤ n ∧ n ≤ Config.maxRun) ∨ s.geometry.logicalCount < l + n then s.refuse p f .badArg
  else if 1 < n ∧ s.ports[p].groupSize = 0 then s.refuse p f .noGroup
  else
    match s.grantId p with
    | .error limit => s.answer p f .leaseFull Config.noLease [limit.word]
    | .ok id =>
      match s.logical? l with
      | none => s.refuse p f .badArg
      | some r =>
        if r.block.isNone then s.answer p f .unmapped Config.noLease [r.version ++ f.low]
        else s.grantRead p f id l n

/-- OPEN_READ (R56 to R59). -/
def execOpenRead (p : PortId) (s : State) : Host.Outcome State Fault Refusal :=
  .next (s.serve p (some .openRead) (State.serveOpenRead p))

/-! ### OPEN_WRITE (R60 to R62) -/

/-- R61: the spare check for an OPEN_WRITE of `l`: a relocation of `l` in WAIT_SLOT counts its destination as a spare, so it grants. -/
def State.openWriteCheck (s : State) (l : Nat) (unmapped : Bool) : SpareCheck :=
  match s.activeRelocation l with
  | some r => if r.state = .waitSlot then .grant else s.spareCheck (s.home l) unmapped
  | none => s.spareCheck (s.home l) unmapped

/-- R62: the grant of a write of `l`, as lease `id`: cancel, take, record. The answer carries the version before the write. -/
def State.grantWrite (s : State) (p : PortId) (f : Frame) (id l : Nat) (version : Half) : State :=
  let c := s.begin.cancelRelocation l true
  match c.takeSpare (s.home l) .front with
  | none => s
  | some (b, c) =>
    let c := c.on fun t => t.setLease id (some ⟨p, f.tag, .write l b 1, t.newExpiry⟩)
    let t := (c.updateLogical l fun r => { r with writeLease := some id }).finish
    t.answer p f .ok (byte id) [blockWord 1 (s.home l) b version]

/-- R60: OPEN_WRITE as served. -/
def State.serveOpenWrite (p : PortId) (f : Frame) (s : State) : State :=
  let l := f.low.toNat
  if s.tableState ≠ .online then s.refuse p f s.tableState.refusal
  else
    match s.logical? l with
    | none => s.refuse p f .badArg
    | some r =>
      match r.writeLease with
      | some id => s.refuseLocked p f id
      | none =>
        match s.grantId p with
        | .error limit => s.answer p f .leaseFull Config.noLease [limit.word]
        | .ok id =>
          match s.openWriteCheck l r.block.isNone with
          | .noSpare => s.refuse p f .noSpare
          | .waitSpare => s.refuse p f .waitSpare
          | .grant => s.grantWrite p f id l r.version

/-- OPEN_WRITE (R60 to R62). -/
def execOpenWrite (p : PortId) (s : State) : Host.Outcome State Fault Refusal :=
  .next (s.serve p (some .openWrite) (State.serveOpenWrite p))

/-! ### COMMIT (R63 to R65) -/

/-- R64: the steps that map `l` to its destination `b`: both sides of the bond, the previous block to STALE, the rescue entry removed,
the lease freed. -/
def Change.commitMapping (c : Change) (id l b : Nat) (r : LogicalRecord) : Change :=
  let d := c.s.home l
  let c := c.updateLogical l fun r => { r with block := some b, version := r.version + 1#16, risk := .none }
  let c := c.updatePhys d b fun x => { x with state := .mapped, owner := some l }
  let c := match r.block with
    | some old => c.makeStale d old
    | none => c
  (c.on fun s => s.leaveRescue l).freeWrite id l

/-- R64, R38: COMMIT with result OK, for write lease `id` on `l` with destination `b`. -/
def State.commitOk (s : State) (p : PortId) (f : Frame) (id l b : Nat) (r : LogicalRecord) : State :=
  let d := s.home l
  if r.block.isNone ∧ s.health? d = some .exhausted then
    (((s.begin.makeStale d b).freeWrite id l).finish.oweDrainCheck).answer p f .noSpare f.byte0 []
  else
    ((s.begin.commitMapping id l b r).finish.oweDrainCheck).answer p f .ok f.byte0 [blockWord 0 d b (r.version + 1#16)]

/-- R65: COMMIT with result PROGRAM_FAIL: the destination retires; a retry takes the front of the spare list, or the lease ends. -/
def State.commitFail (s : State) (p : PortId) (f : Frame) (id : Nat) (lease : Lease) (l b attempt : Nat) (r : LogicalRecord) :
    State :=
  let d := s.home l
  let c := s.begin.retire d b .programFail
  let failed := ((c.freeWrite id l).finish.oweDrainCheck).answer p f .writeFailed f.byte0 [fieldWord (byte attempt) 0#8 0#16]
  if attempt < Config.maxAttempts ∧ c.s.spareCheck d r.block.isNone = .grant then
    match c.takeSpare d .front with
    | none => failed
    | some (b', c) =>
      let t := (c.on fun t =>
        t.setLease id (some { lease with body := .write l b' (attempt + 1), expiry := t.newExpiry })).finish
      t.answer p f .newDest f.byte0 [blockWord (attempt + 1) d b' 0#16]
  else failed

/-- R63: COMMIT as served. -/
def State.serveCommit (p : PortId) (f : Frame) (s : State) : State :=
  s.withLease p f fun id lease =>
    match lease.body with
    | .read _ => s.answer p f .badArg f.byte0 []
    | .write l b attempt =>
      match s.logical? l with
      | none => s
      | some r =>
        match f.byte1.toNat with
        | 0x00 => s.commitOk p f id l b r
        | 0x01 => s.commitFail p f id lease l b attempt r
        | _ => s.answer p f .badArg f.byte0 []

/-- COMMIT (R63 to R65). -/
def execCommit (p : PortId) (s : State) : Host.Outcome State Fault Refusal :=
  .next (s.serve p (some .commit) (State.serveCommit p))

/-! ### RELEASE and RENEW (R66, R67) -/

/-- R66: RELEASE as served: a matched READ lease is released, a matched WRITE lease abandoned. -/
def State.serveRelease (p : PortId) (f : Frame) (s : State) : State :=
  s.withLease p f fun id _ => ((s.begin.endLease id).finish.oweDrainCheck).answer p f .ok f.byte0 []

/-- RELEASE (R66). -/
def execRelease (p : PortId) (s : State) : Host.Outcome State Fault Refusal :=
  .next (s.serve p (some .release) (State.serveRelease p))

/-- R67: RENEW as served: the expiry is set from LEASE_LIMIT, and the answer carries it, 0 for no timer. -/
def State.serveRenew (p : PortId) (f : Frame) (s : State) : State :=
  s.withLease p f fun id lease =>
    (s.setLease id (some { lease with expiry := s.newExpiry })).answer p f .ok f.byte0
      [0#16 ++ BitVec.ofNat 16 (s.newExpiry.getD 0)]

/-- RENEW (R67). -/
def execRenew (p : PortId) (s : State) : Host.Outcome State Fault Refusal :=
  .next (s.serve p (some .renew) (State.serveRenew p))

/-! ### DISCARD (R68, R69) -/

/-- R69: the change of a DISCARD of `l`: cancel, then unmap. -/
def Change.discard (c : Change) (l : Nat) : Change :=
  let c := c.cancelRelocation l false
  match (c.s.logical? l).bind (·.block) with
  | none => c
  | some b =>
    let c := c.updateLogical l fun r => { r with block := none, version := r.version + 1#16, risk := .none }
    (c.makeStale (c.s.home l) b).on fun s => s.leaveRescue l

/-- R68: DISCARD as served; the answer carries the version after the change. -/
def State.serveDiscard (p : PortId) (f : Frame) (s : State) : State :=
  let l := f.low.toNat
  if !s.tableState.inService then s.refuse p f .offline
  else
    match s.logical? l with
    | none => s.refuse p f .badArg
    | some r =>
      match r.writeLease with
      | some id => s.refuseLocked p f id
      | none =>
        let version := if r.block.isSome then r.version + 1#16 else r.version
        (s.begin.discard l).finish.answer p f .ok Config.noLease [0#16 ++ version]

/-- DISCARD (R68, R69). -/
def execDiscard (p : PortId) (s : State) : Host.Outcome State Fault Refusal :=
  .next (s.serve p (some .discard) (State.serveDiscard p))

/-! ### Expiry (R53) -/

/-- R53: the expiry of lease `id`: it is released or abandoned, its holder is sent a LEASE_EXPIRED notice, and a drain check is owed. -/
def State.expireLease (s : State) (id : Nat) : State := (s.begin.endLeaseWithNotice .expired id).finish.oweDrainCheck

/-- LEASE_EXPIRY (R53): it happens to an open lease that has a timer. -/
def execLeaseExpiry (id : Fin 64) (s : State) : Host.Outcome State Fault Refusal :=
  .next (if (s.lease? id).any fun l => l.expiry.isSome then s.expireLease id else s)

end Sys2Proof.Machine
end

