-- ==== Sys2Proof/Machine/Ports.lean ====
section
/-! DEFINITION. The commands of the map ports themselves (chapter 6): arrival of a frame, HELLO, a frame leaving, link loss, SET_GROUP
and requests of unknown form. -/

namespace Sys2Proof.Machine

/-! ### Arrival and HELLO (R118, R119, R120, R125) -/

/-- R119: the port's part of coming UP: the next epoch, GROUP_SIZE 0, 8 credits owed and the HELLO answer. -/
def Port.comeUp (x : Port) (tag : Byte) (t : TableState) : Port :=
  { x with
    link := .up
    epoch := x.epoch + 1#8
    groupSize := 0
    credits := Config.maxCredits
    outgoing := x.outgoing ++ [helloAnswer tag (x.epoch + 1#8) t]
    issueDue := true }

/-- R119, R120: a HELLO that passes its check is taken: an UP port is first lost with cause HELLO, and the port comes UP. In DISABLED
nothing is admitted. -/
def State.takeHello (s : State) (p : PortId) (tag : Byte) : State :=
  match s.ports[p].link with
  | .disabled => s
  | .down => s.mapPort p fun x => x.comeUp tag s.tableState
  | .up => ((s.begin.losePort p .hello .down).on fun t => t.mapPort p fun x => x.comeUp tag t.tableState).finish

/-- R125: a CREDIT frame is placed when credits are owed and the outgoing queue is empty. -/
def Port.placeCredit (x : Port) : Port :=
  if 0 < x.credits ∧ x.outgoing = [] then { x with outgoing := [creditFrame] } else x

/-- R118: the frame is discarded and counted DISCARDED_WHILE_DOWN. -/
def Port.discardFrame (x : Port) : Port := { x with discards := countUp x.discards }

/-- R118, R125: the frame failed its check: it is counted, and in UP one credit is owed back. -/
def Port.failFrame (x : Port) : Port :=
  let x := { x with frameErrors := countUp x.frameErrors }
  if x.link = .up then { x with credits := creditUp x.credits }.placeCredit else x

/-- R118: a good frame of a kind other than HELLO: counted in DOWN, placed in the FIFO in UP, counted OVERRUN when the FIFO is full. -/
def Port.acceptFrame (x : Port) (f : Frame) : Port :=
  match x.link with
  | .disabled | .down => x.discardFrame
  | .up =>
    if x.fifo.length < Config.fifoDepth then { x with fifo := x.fifo ++ [f] } else { x with overruns := countUp x.overruns }

/-- R118: a whole frame arrives on port `p`. -/
def State.frameArrives (s : State) (p : PortId) (f : Frame) : State :=
  if s.ports[p].link = .disabled then s.mapPort p Port.discardFrame
  else if !framePasses f then s.mapPort p Port.failFrame
  else if f.kind = helloKind then s.takeHello p f.tag
  else s.mapPort p fun x => x.acceptFrame f

/-- FRAME_ARRIVAL (R118). -/
def execFrameArrival (p : PortId) (f : Frame) (s : State) : Host.Outcome State Fault Refusal := .next (s.frameArrives p f)

/-- HELLO (R119, R120): the arrival of a HELLO frame with a good check. -/
def execHello (p : PortId) (tag : Byte) (s : State) : Host.Outcome State Fault Refusal :=
  .next (s.frameArrives p (mkFrame helloKind tag []))

/-! ### SET_GROUP and unknown requests -/

/-- R55: SET_GROUP as served. -/
def State.serveSetGroup (p : PortId) (f : Frame) (s : State) : State :=
  if 1 ≤ f.byte0.toNat ∧ f.byte0.toNat ≤ Config.maxGroup then
    (s.mapPort p fun x => { x with groupSize := f.byte0.toNat }).answer p f .ok Config.noLease [fieldWord f.byte0 0#8 0#16]
  else s.refuse p f .badArg

/-- SET_GROUP (R55). -/
def execSetGroup (p : PortId) (s : State) : Host.Outcome State Fault Refusal :=
  .next (s.serve p (some .setGroup) (State.serveSetGroup p))

/-- UNKNOWN_REQUEST (R188): a frame whose form is not accepted is answered BAD_ARG, with the kind code as received. -/
def execUnknownRequest (p : PortId) (s : State) : Host.Outcome State Fault Refusal :=
  .next (s.serve p none fun f t => t.refuse p f .badArg)

/-! ### Frames leaving (R124, R128) -/

/-- R128: one pending notice takes the freed place: the MAP_RESET notice if the flag is set, otherwise the oldest lease entry. -/
def Port.placePending (x : Port) : Port :=
  if x.mapResetFlag then { x with outgoing := x.outgoing ++ [mapResetNotice], mapResetFlag := false }
  else
    match x.notices with
    | [] => x
    | n :: rest => { x with outgoing := x.outgoing ++ [n.frame], notices := rest }

/-- R103, R124, R128: the head frame leaves with the credits owed, which become 0; a pending notice takes its place; and the port is to
be considered for an issue. With an empty queue no frame leaves. -/
def Port.frameLeaves (x : Port) : Port :=
  match x.outgoing with
  | [] => x
  | f :: rest =>
    { x with outgoing := rest, txLane := f.words x.credits, credits := 0, issueDue := true }.placePending

/-- FRAME_LEAVE (R124, R128). -/
def execFrameLeave (p : PortId) (s : State) : Host.Outcome State Fault Refusal := .next (s.mapPort p Port.frameLeaves)

/-! ### Link loss (R121, R123) -/

/-- R121, R110: the loss of an UP port by link loss or order timeout, with PORT_FAULT raised. -/
def State.faultPort (s : State) (p : PortId) (cause : LossCause) : State :=
  ((s.begin.losePort p cause .down).on fun t => t.raise .portFault).finish

/-- LINK_LOSS (R121): only an UP port is lost. -/
def execLinkLoss (p : PortId) (s : State) : Host.Outcome State Fault Refusal :=
  .next (if s.ports[p].link = .up then s.faultPort p .linkLoss else s)

end Sys2Proof.Machine
end

