-- ==== Sys2Proof/Machine/Relocations.lean ====
section
/-! DEFINITION. The Relocation Engine's commands (chapter 4): REPORT_WEAK and the evaluation of a die, and the results of COPY orders. -/

namespace Sys2Proof.Machine

/-! ### REPORT_WEAK (R73, R74) -/

/-- R74, 10.1.4: the answer to a REPORT_WEAK, carrying the block's state and weak mark as they now stand. -/
def State.answerWeak (s : State) (p : PortId) (f : Frame) (status : AnswerStatus) (d b : Nat) : State :=
  match s.phys? d b with
  | none => s.refuse p f .badArg
  | some r => s.answer p f status Config.noLease [fieldWord (0#5 ++ r.state.code) (0#6 ++ weakCode r.weak) 0#16]

/-- R74: a weak report on block `b` of die `d`, whose record is `r`, by its state. -/
def State.reportOn (s : State) (p : PortId) (f : Frame) (d b : Nat) (r : PhysRecord) : State :=
  match r.state with
  | .mapped =>
    match r.owner with
    | none => (s.begin.mark d b .port).finish.answerWeak p f .ok d b
    | some l =>
      let status := if s.offerRefused l then AnswerStatus.queueFull else .ok
      (((s.begin.mark d b .port).on fun t => t.offer l false).finish).answerWeak p f status d b
  | .stale => (s.begin.markStale d b .port).finish.answerWeak p f .ok d b
  | .fixed | .spare | .allocated | .erasing | .retired => s.answerWeak p f .noEffect d b

/-- R73: REPORT_WEAK as served. -/
def State.serveReportWeak (p : PortId) (f : Frame) (s : State) : State :=
  let d := f.byte0.toNat
  let b := f.high.toNat
  if !s.tableState.inService then s.refuse p f .offline
  else
    match s.phys? d b with
    | none => s.refuse p f .badArg
    | some r => s.reportOn p f d b r

/-- REPORT_WEAK (R73, R74). -/
def execReportWeak (p : PortId) (s : State) : Host.Outcome State Fault Refusal :=
  .next (s.serve p (some .reportWeak) (State.serveReportWeak p))

/-! ### Evaluation of a die (R81 to R85) -/

/-- R85: what a relocation starts with. -/
structure RelocationStart where
  kind : RelocationKind
  logical : Nat
  source : Nat
deriving DecidableEq, Repr

/-- R83, R84: the end of the spare list a kind of relocation takes. -/
def RelocationKind.spareEnd : RelocationKind → SpareEnd
  | .level => .back
  | .rescue => .front

/-- R83, R84: whether a logical block holds no write lease. -/
def State.unleased (s : State) (l : Nat) : Bool := (s.logical? l).any fun r => r.writeLease.isNone

/-- R83: the rescue choice: the oldest entry whose logical block holds no write lease. -/
def State.rescueChoice (s : State) (d : Nat) : Option RelocationStart :=
  ((s.rescue d).find? s.unleased).bind fun l =>
    ((s.logical? l).bind (·.block)).map fun b => ⟨.rescue, l, b⟩

/-- R20: the lowest mapped class of a die, absent when it has no MAPPED block. -/
def Die.lowestMapped (x : Die) : Option Nat := (x.mapped.take (Config.maxClass + 1)).findIdx? (· != 0)

/-- R84: whether a block can be a level source: MAPPED, of this class, unmarked, its owner without a write lease. -/
def State.levelSource (s : State) (class_ : Nat) (r : PhysRecord) : Bool :=
  r.state == .mapped && classOf s.geometry.classWidth r.eraseCount == class_ && r.weak.isNone && r.owner.any s.unleased

/-- R84: the level choice of the level monitor. -/
def State.levelChoice (s : State) (d : Nat) : Option RelocationStart :=
  match s.die? d with
  | none => none
  | some x =>
    match x.spares.getLast?, x.lowestMapped with
    | some back, some low =>
      if s.params.levelEnable ∧ x.health = .good ∧ x.rescue = []
          ∧ low + s.params.levelGap ≤ classOf s.geometry.classWidth (x.eraseCount back) then
        (x.blocks.findIdx? (s.levelSource low)).bind fun b =>
          ((x.blocks[b]?).bind (·.owner)).map fun l => ⟨.level, l, b⟩
      else none
    | _, _ => none

/-- R82: what an evaluation of die `d` starts, if anything. -/
def State.evaluate (s : State) (d : Nat) : Option RelocationStart :=
  if s.tableState = .online ∧ (s.relocation? d).isNone ∧ s.spares d ≠ [] then
    if s.rescue d = [] then s.levelChoice d else s.rescueChoice d
  else none

/-- R85: the start of a relocation on die `d`, one change. -/
def State.startRelocation (s : State) (d : Nat) (x : RelocationStart) : State :=
  match s.begin.takeSpare d x.kind.spareEnd with
  | none => s
  | some (b, c) =>
    let c := c.on fun t =>
      (t.setRelocation d (some ⟨x.kind, x.logical, x.source, b, 1, .waitSlot⟩)).setWaiting (t.waiting ++ [d])
    let c := c.updateLogical x.logical fun r => { r with relocating := true }
    ((if x.kind = .rescue then c.on fun t => t.leaveRescue x.logical else c).on fun t => t.considerOwner d).finish

/-- R81, R82: one evaluation of die `d`, for one of the triggers owed. -/
def State.evaluateDie (s : State) (d : SlotId) : State :=
  let n := s.evaluationsOwed[d]
  if n = 0 then s
  else
    let s := { s with evaluationsOwed := s.evaluationsOwed.set d (n - 1) }
    match s.evaluate d with
    | none => s
    | some x => s.startRelocation d x

/-- RELOCATION_EVALUATION (R81 to R85): with no trigger owed, no evaluation happens. -/
def execRelocationEvaluation (d : SlotId) (s : State) : Host.Outcome State Fault Refusal := .next (s.evaluateDie d)

/-! ### COPY results (R88 to R91) -/

/-- R108: the result an ORDER_DONE reports of a COPY order. -/
inductive CopyResult where
  | ok | programFail | readFail
deriving DecidableEq, Repr

/-- R81, R88 to R91: the relocation of die `d` is freed by its result, which is a trigger. -/
def Change.freeByResult (c : Change) (d : Nat) : Change := (c.freeRelocation d).on fun s => s.triggerDie d

/-- R88: COPY result OK for the active relocation `r` of die `d`. -/
def Change.copyOk (c : Change) (d : Nat) (r : Relocation) : Change :=
  let c := c.updateLogical r.logical fun x => { x with block := some r.destination, version := x.version + 1#16 }
  let c := c.updatePhys d r.destination fun x => { x with state := .mapped, owner := some r.logical }
  let c := c.makeStale d r.source
  (c.on fun s => s.leaveRescue r.logical).freeByResult d

/-- R89: the retry of the active relocation `r` of die `d`: a new destination, WAIT_SLOT at the tail of the waiting list, and the owning
port to be considered. -/
def Change.retryCopy (c : Change) (d : Nat) (r : Relocation) (b : Nat) : Change :=
  c.on fun s =>
    ((s.setRelocation d (some { r with destination := b, attempt := r.attempt + 1, state := .waitSlot })).setWaiting
      (s.waiting ++ [d])).considerOwner d

/-- R89: COPY result PROGRAM_FAIL for the active relocation `r` of die `d`. -/
def Change.copyProgramFail (c : Change) (d : Nat) (r : Relocation) : Change :=
  let c := c.retire d r.destination .copyFail
  let ended := ((c.freeRelocation d).offerBack r false).on fun s => s.triggerDie d
  if c.s.tableState = .online ∧ r.attempt < Config.maxAttempts then
    match c.takeSpare d r.kind.spareEnd with
    | none => ended
    | some (b, c) => c.retryCopy d r b
  else ended

/-- R90: COPY result READ_FAIL for the active relocation `r` of die `d`. -/
def Change.copyReadFail (c : Change) (d : Nat) (r : Relocation) : Change :=
  let c := (c.makeStale d r.destination).mark d r.source .port
  let c := c.updateLogical r.logical fun x => { x with risk := .unreadable }
  (c.on fun s => s.raise .dataAtRisk).freeByResult d

/-- R91: what a READ_FAIL of the CANCELLED relocation `r` makes of its source, by the source's present state. -/
def Change.judgeSource (c : Change) (d : Nat) (r : Relocation) : Change :=
  match c.s.phys? d r.source with
  | none => c
  | some x =>
    match x.state with
    | .stale => c.markStale d r.source .port
    | .erasing => c.mark d r.source .port
    | .mapped =>
      if x.owner = some r.logical then (c.mark d r.source .port).on fun s => s.offer r.logical false else c
    | .fixed | .spare | .allocated | .retired => c

/-- R91: a COPY result for the CANCELLED relocation `r` of die `d`. -/
def Change.copyCancelled (c : Change) (d : Nat) (r : Relocation) (result : CopyResult) : Change :=
  (match result with
    | .ok => c.makeStale d r.destination
    | .programFail => c.retire d r.destination .copyFail
    | .readFail => (c.makeStale d r.destination).judgeSource d r).freeByResult d

/-- R88 to R91: a COPY result for the relocation `r` of die `d`. -/
def Change.copyResult (c : Change) (d : Nat) (r : Relocation) (result : CopyResult) : Change :=
  if r.active then
    match result with
    | .ok => c.copyOk d r
    | .programFail => c.copyProgramFail d r
    | .readFail => c.copyReadFail d r
  else c.copyCancelled d r result

end Sys2Proof.Machine
end

