-- ==== Sys2Proof/Machine/Orders.lean ====
section
/-! DEFINITION. The Order Dispatcher's commands (chapter 5): the consideration of a port, ORDER_DONE and order timeouts. -/

namespace Sys2Proof.Machine

/-! ### The choice of work (R102, R104, R105) -/

/-- R102: whether the dispatcher of port `p` may issue an order. -/
def State.mayIssue (s : State) (p : PortId) : Bool :=
  let x := s.ports[p]
  x.link == .up && s.tableState == .online && decide (x.orders.length < Config.orderSlots)
    && decide (x.outgoing.length < Config.outgoingDepth)

/-- R99: whether an order is an ERASE. -/
def Order.isErase (o : Order) : Bool :=
  match o.work with
  | .erase _ => true
  | .copy _ _ => false

/-- R104: the oldest relocation of this kind in the waiting list on a die port `p` owns. -/
def State.waitingOf (s : State) (p : PortId) (kind : RelocationKind) : Option Nat :=
  s.waiting.find? fun d => (s.ownedDies p).contains d && (s.relocation? d).any fun r => r.kind == kind

/-- R105: the dies port `p` owns as a cycle, from the one after its last erase die, or from the lowest when that is none or no longer
owned. -/
def State.eraseCycle (s : State) (p : PortId) : List Nat :=
  let owned := s.ownedDies p
  match s.ports[p].lastEraseDie with
  | none => owned
  | some last =>
    if owned.contains last then owned.filter (fun d => last < d) ++ owned.filter (fun d => d ≤ last) else owned

/-- R105: the first die of the cycle whose erase queue is not empty, with the block at its head. -/
def State.eraseChoice (s : State) (p : PortId) : Option (Nat × Nat) :=
  (s.eraseCycle p).findSome? fun d => ((s.die? d).bind fun x => x.eraseQueue.head?).map fun b => (d, b)

/-- R104: the work the dispatch arbiter of port `p` chooses, with its die. -/
def State.chooseWork (s : State) (p : PortId) : Option (Nat × OrderWork) :=
  match s.waitingOf p .rescue <|> s.waitingOf p .level with
  | some d => (s.relocation? d).map fun r => (d, .copy r.source r.destination)
  | none =>
    if s.ports[p].orders.countP Order.isErase < Config.maxErases then
      (s.eraseChoice p).map fun w => (w.1, .erase w.2)
    else none

/-! ### The issue (R99, R100, R106) -/

/-- R100: the counter stepped past every value that is the tag of an issued order; at most four are passed over. -/
def freshTag (tags : List Byte) : Nat → Byte → Byte
  | 0, t => t
  | fuel + 1, t => if tags.contains t then freshTag tags fuel (t + 1#8) else t

/-- R99: the lowest-numbered empty slot. -/
def Port.freeSlot (x : Port) : Nat :=
  ((List.range Config.orderSlots).find? fun n => !(x.orders.any fun o => o.slot == n)).getD 0

/-- R99, R100, R106: the order a port issues for this work, with this timer. -/
def Port.newOrder (x : Port) (d : Nat) (w : OrderWork) (limit : Nat) : Order :=
  { slot := x.freeSlot, work := w, die := d, tag := freshTag (x.orders.map (·.tag)) Config.orderSlots x.tagCounter,
    epoch := x.epoch, timer := limit }

/-- R100, R106: the port when it issues the order: the order in its slot, the counter stepped, the ORDER frame placed; an ERASE's die
becomes the last erase die. -/
def Port.issue (x : Port) (o : Order) : Port :=
  { x with
    orders := x.orders ++ [o]
    tagCounter := o.tag + 1#8
    outgoing := x.outgoing ++ [o.frame]
    lastEraseDie := if o.isErase then some o.die else x.lastEraseDie }

/-- R87, R106: the effect of an issue on the work chosen. -/
def Change.beginWork (c : Change) (o : Order) : Change :=
  match o.work with
  | .copy _ _ =>
    match c.s.relocation? o.die with
    | none => c
    | some r =>
      c.on fun s =>
        (s.setRelocation o.die (some { r with state := .copying o.tag o.epoch })).setWaiting (s.waiting.filter (· != o.die))
  | .erase b =>
    (c.updatePhys o.die b fun r => { r with state := .erasing }).on fun s =>
      s.mapDie o.die fun x => { x with eraseQueue := x.eraseQueue.tail }

/-- R106: the issue of an order for this work on port `p`, one change. -/
def State.issue (s : State) (p : PortId) (d : Nat) (w : OrderWork) : State :=
  let o := s.ports[p].newOrder d w s.params.orderLimit
  ((s.mapPort p fun x => x.issue o).begin.beginWork o).finish

/-- R103: one consideration of port `p`. When it issues an order the port is to be considered again; when it does not, it is done. -/
def State.considerPort (s : State) (p : PortId) : State :=
  if !s.ports[p].issueDue then s
  else if s.mayIssue p then
    match s.chooseWork p with
    | some (d, w) => s.issue p d w
    | none => s.mapPort p fun x => { x with issueDue := false }
  else s.mapPort p fun x => { x with issueDue := false }

/-- DISPATCH_CONSIDERATION (R102 to R106): with no consideration due, none happens. -/
def execDispatchConsideration (p : PortId) (s : State) : Host.Outcome State Fault Refusal := .next (s.considerPort p)

/-! ### ORDER_DONE (R107, R108, R33, R34) -/

/-- R33: an ERASE result OK for block `b` of die `d`: the count rises; the block returns to the spare list, or retires if weak. -/
def Change.eraseOk (c : Change) (d b : Nat) : Change :=
  match c.s.phys? d b with
  | none => c
  | some r =>
    match r.weak with
    | none => c.joinSpare d b (nextEraseCount r.eraseCount)
    | some w => c.retireWith d b w.retireCause (nextEraseCount r.eraseCount)

/-- R33, R34: an ERASE result, which is a trigger for the die. -/
def Change.eraseResult (c : Change) (d b : Nat) (ok : Bool) : Change :=
  (if ok then c.eraseOk d b else c.retire d b .eraseFail).on fun s => s.triggerDie d

/-- R107, R108: the result a status reports of an order. -/
inductive OrderResult where
  | erase (block : Nat) (ok : Bool)
  | copy (result : CopyResult)
deriving DecidableEq, Repr

/-- R107: the result a status stands for, or none when the status does not suit the order's kind. -/
def Order.result (o : Order) (status : Nat) : Option OrderResult :=
  match o.work, status with
  | .erase b, 0x00 => some (.erase b true)
  | .erase b, 0x01 => some (.erase b false)
  | .copy _ _, 0x00 => some (.copy .ok)
  | .copy _ _, 0x02 => some (.copy .programFail)
  | .copy _ _, 0x03 => some (.copy .readFail)
  | _, _ => none

/-- R108: an order's result goes to its owner; a COPY result to the relocation whose order field holds the order's tag and epoch. -/
def Change.orderResult (c : Change) (o : Order) : OrderResult → Change
  | .erase b ok => c.eraseResult o.die b ok
  | .copy result =>
    match c.s.relocationOf o.die o.tag o.epoch with
    | none => c
    | some r => c.copyResult o.die r result

/-- R107: the order issued on a port that a tag and epoch match: the epoch must be the order's and the port's. -/
def Port.matchOrder (x : Port) (tag epoch : Byte) : Option Order :=
  x.orders.find? fun o => o.tag == tag && o.epoch == epoch && epoch == x.epoch

/-- R108: a matched ORDER_DONE: the slot is emptied, the result applied, and the port is to be considered. -/
def State.finishOrder (s : State) (p : PortId) (o : Order) (result : OrderResult) : State :=
  let s := s.mapPort p fun x => { x with orders := x.orders.filter (· != o), issueDue := true }
  (s.begin.orderResult o result).finish.oweDrainCheck

/-- R107, R108: ORDER_DONE as served. -/
def State.serveOrderDone (p : PortId) (f : Frame) (s : State) : State :=
  match s.ports[p].matchOrder f.byte0 f.byte1 with
  | none => s.refuse p f .unknownOrder
  | some o =>
    match o.result f.byte2.toNat with
    | none => s.refuse p f .badArg
    | some result => (s.finishOrder p o result).refuse p f .ok

/-- ORDER_DONE (R107, R108). -/
def execOrderDone (p : PortId) (s : State) : Host.Outcome State Fault Refusal :=
  .next (s.serve p (some .orderDone) (State.serveOrderDone p))

/-! ### Order timeouts (R110) -/

/-- ORDER_TIMEOUT (R110): the timeout of an order issued on an UP port loses the port with PORT_FAULT. -/
def execOrderTimeout (p : PortId) (tag : Byte) (s : State) : Host.Outcome State Fault Refusal :=
  .next (if s.ports[p].link = .up ∧ s.ports[p].hasOrder tag then s.faultPort p .orderTimeout else s)

end Sys2Proof.Machine
end

