-- ==== Sys2Proof/Machine/Service.lean ====
section
/-! DEFINITION. The maintenance commands that act on blocks and ports, RETIRE_BLOCK and PORT_CONTROL, and the millisecond of the timers. -/

namespace Sys2Proof.Machine

/-! ### RETIRE_BLOCK (R42, R43) -/

/-- R43: the response to a RETIRE_BLOCK that was applied: the block's state and weak mark as they now stand. -/
def State.retireReply (s : State) (status : MaintStatus) (d b : Nat) : Reply :=
  match s.phys? d b with
  | none => s.reject .badArg
  | some r => ⟨s, status, [0#5 ++ r.state.code, 0#6 ++ weakCode r.weak]⟩

/-- R42 step 3, R43: RETIRE_BLOCK on block `b` of die `d`, whose record is `r`, by its state. -/
def State.retireOn (s : State) (d b : Nat) (r : PhysRecord) : Reply :=
  match r.state with
  | .spare => (s.begin.retire d b .host).finish.retireReply .ok d b
  | .mapped =>
    match r.owner with
    | none => (s.begin.mark d b .host).finish.retireReply .ok d b
    | some l =>
      let status := if s.offerRefused l then MaintStatus.listFull else .ok
      (((s.begin.mark d b .host).on fun t => t.offer l false).finish).retireReply status d b
  | .stale => (s.begin.markStale d b .host).finish.retireReply .ok d b
  | .fixed | .allocated | .erasing | .retired => s.reject .wrongState

/-- R42: RETIRE_BLOCK's own rule. -/
def State.retireBlock (s : State) (d b : Nat) : Reply :=
  if !s.tableState.hasTable then s.reject .wrongState
  else
    match s.phys? d b with
    | none => s.reject .badArg
    | some r => s.retireOn d b r

/-- RETIRE_BLOCK (R42, R43). -/
def execRetireBlock (die : Byte) (block : Half) (s : State) : Host.Outcome State Fault Refusal :=
  .next (s.gatedCommand fun s => s.retireBlock die.toNat block.toNat)

/-! ### PORT_CONTROL (R133) -/

/-- R133: the response to a PORT_CONTROL that was applied: the port's link state after the change. -/
def State.portReply (s : State) (p : PortId) : Reply := ⟨s, .ok, [s.ports[p].link.code]⟩

/-- R133: PORT_CONTROL ENABLE: a DISABLED port becomes DOWN. -/
def State.enablePort (s : State) (p : PortId) : State :=
  match s.ports[p].link with
  | .disabled => s.mapPort p fun x => { x with link := .down }
  | .down | .up => s

/-- R133: PORT_CONTROL DISABLE: a DOWN port becomes DISABLED, and an UP port is lost with cause DISABLED. -/
def State.disablePort (s : State) (p : PortId) : State :=
  match s.ports[p].link with
  | .disabled => s
  | .down => s.mapPort p fun x => { x with link := .disabled }
  | .up => (s.begin.losePort p .disabled .disabled).finish

/-- PORT_ENABLE (R133). -/
def execPortEnable (port : Byte) (s : State) : Host.Outcome State Fault Refusal :=
  .next (s.gatedCommand fun s =>
    match portOfByte port with
    | none => s.reject .badArg
    | some p => (s.enablePort p).portReply p)

/-- PORT_DISABLE (R133). -/
def execPortDisable (port : Byte) (s : State) : Host.Outcome State Fault Refusal :=
  .next (s.gatedCommand fun s =>
    match portOfByte port with
    | none => s.reject .badArg
    | some p => (s.disablePort p).portReply p)

/-! ### A millisecond (R52, R53, R109, R110) -/

/-- R52: a lease's remaining time after one millisecond. -/
def Lease.tick (l : Lease) : Lease := { l with expiry := l.expiry.map (· - 1) }

/-- R109: a port's order timers after one millisecond. -/
def Port.tick (x : Port) : Port := { x with orders := x.orders.map fun o => { o with timer := o.timer - 1 } }

/-- R52, R109: every timer falls by 1. -/
def State.timersFall (s : State) : State :=
  let s := (List.range Config.leaseEntries).foldl
    (fun s id => match s.lease? id with | some l => s.setLease id (some l.tick) | none => s) s
  { s with ports := #v[s.ports[0].tick, s.ports[1].tick, s.ports[2].tick, s.ports[3].tick] }

/-- R53: the leases whose remaining time has reached 0 expire, in ascending id. -/
def State.expireDue (s : State) : State :=
  (List.range Config.leaseEntries).foldl
    (fun s id => if (s.lease? id).any fun l => l.expiry == some 0 then s.expireLease id else s) s

/-- R110: a port with an order whose timer has reached 0 is lost. -/
def State.timeoutDue (s : State) (p : PortId) : State :=
  if s.ports[p].orders.any fun o => o.timer == 0 then s.faultPort p .orderTimeout else s

/-- R52, R109: one millisecond of the part's clock: every timer falls by 1, and those that reach 0 make their events happen. -/
def State.millisecond (s : State) : State :=
  ((((s.timersFall.expireDue).timeoutDue 0).timeoutDue 1).timeoutDue 2).timeoutDue 3

end Sys2Proof.Machine
end

