-- ==== Sys2Proof/Machine/Dispatch.lean ====
section
/-! DEFINITION. The dispatch of a command to its meaning, one arm for each row of spec/opcode_table.json. -/

namespace Sys2Proof.Machine

def exec (i : Instr) (s : State) : Host.Outcome State Fault Refusal :=
  match i with
  | .frameArrival p f => Sys2Proof.Machine.execFrameArrival p f s
  | .hello p tag => Sys2Proof.Machine.execHello p tag s
  | .setGroup p => Sys2Proof.Machine.execSetGroup p s
  | .openRead p => Sys2Proof.Machine.execOpenRead p s
  | .openWrite p => Sys2Proof.Machine.execOpenWrite p s
  | .commit p => Sys2Proof.Machine.execCommit p s
  | .release p => Sys2Proof.Machine.execRelease p s
  | .renew p => Sys2Proof.Machine.execRenew p s
  | .discard p => Sys2Proof.Machine.execDiscard p s
  | .reportWeak p => Sys2Proof.Machine.execReportWeak p s
  | .orderDone p => Sys2Proof.Machine.execOrderDone p s
  | .unknownRequest p => Sys2Proof.Machine.execUnknownRequest p s
  | .frameLeave p => Sys2Proof.Machine.execFrameLeave p s
  | .linkLoss p => Sys2Proof.Machine.execLinkLoss p s
  | .leaseExpiry id => Sys2Proof.Machine.execLeaseExpiry id s
  | .orderTimeout p tag => Sys2Proof.Machine.execOrderTimeout p tag s
  | .relocationEvaluation d => Sys2Proof.Machine.execRelocationEvaluation d s
  | .dispatchConsideration p => Sys2Proof.Machine.execDispatchConsideration p s
  | .drainCheck => Sys2Proof.Machine.execDrainCheck s
  | .formatCompletion => Sys2Proof.Machine.execFormatCompletion s
  | .loadCompletion => Sys2Proof.Machine.execLoadCompletion s
  | .deviceReset => Sys2Proof.Machine.execDeviceReset s
  | .spiSelectAssert => Sys2Proof.Machine.execSpiSelectAssert s
  | .spiSelectRelease => Sys2Proof.Machine.execSpiSelectRelease s
  | .unknownCommand opcode payload => Sys2Proof.Machine.execUnknownCommand opcode payload s
  | .identify => Sys2Proof.Machine.execIdentify s
  | .getStatus => Sys2Proof.Machine.execGetStatus s
  | .ackAttn causes => Sys2Proof.Machine.execAckAttn causes s
  | .setParam code index value => Sys2Proof.Machine.execSetParam code index value s
  | .getParam code index => Sys2Proof.Machine.execGetParam code index s
  | .translate l => Sys2Proof.Machine.execTranslate l s
  | .readBlock die block => Sys2Proof.Machine.execReadBlock die block s
  | .readSpares die => Sys2Proof.Machine.execReadSpares die s
  | .readHistogram die selector => Sys2Proof.Machine.execReadHistogram die selector s
  | .portInfo port => Sys2Proof.Machine.execPortInfo port s
  | .portEnable port => Sys2Proof.Machine.execPortEnable port s
  | .portDisable port => Sys2Proof.Machine.execPortDisable port s
  | .markBad names => Sys2Proof.Machine.execMarkBad names s
  | .clearBadList => Sys2Proof.Machine.execClearBadList s
  | .format dieCount blocksPerDie logicalCount classWidth minSpares => Sys2Proof.Machine.execFormat dieCount blocksPerDie logicalCount classWidth minSpares s
  | .goOnline => Sys2Proof.Machine.execGoOnline s
  | .goOffline => Sys2Proof.Machine.execGoOffline s
  | .goOfflineForce => Sys2Proof.Machine.execGoOfflineForce s
  | .mapReset => Sys2Proof.Machine.execMapReset s
  | .loadBegin => Sys2Proof.Machine.execLoadBegin s
  | .loadData words => Sys2Proof.Machine.execLoadData words s
  | .loadEnd => Sys2Proof.Machine.execLoadEnd s
  | .saveBegin => Sys2Proof.Machine.execSaveBegin s
  | .saveData count => Sys2Proof.Machine.execSaveData count s
  | .saveAbort => Sys2Proof.Machine.execSaveAbort s
  | .retireBlock die block => Sys2Proof.Machine.execRetireBlock die block s
  | .turnaroundEnd => Sys2Proof.Machine.execTurnaroundEnd s
  | .badFrame opcode payload check => Sys2Proof.Machine.execBadFrame opcode payload check s

end Sys2Proof.Machine
end

