-- ==== Sys2Proof/Safety.lean ====
section
/-! DEFINITION. The terms claims are made in: what a command leaves as it was, when the arbiter takes a request, and the four
invariants that every step keeps: of the ports, of the control of the table, of the dies' derived counts, and of the records with the
lists, leases, relocations and orders that name them. -/

namespace Sys2Proof.Machine

/-! ### Frames -/

/-- The ports other than `p` are as they were. -/
def State.OtherPorts (s t : State) (p : PortId) : Prop := ∀ q : PortId, q ≠ p → t.ports[q] = s.ports[q]

/-- The lease entries other than `id` are as they were. -/
def State.OtherLeases (s t : State) (id : Nat) : Prop := ∀ i : Nat, i ≠ id → t.lease? i = s.lease? i

/-- The logical records other than that of `l` are as they were. -/
def State.OtherLogical (s t : State) (l : Nat) : Prop := ∀ k : Nat, k ≠ l → t.logical? k = s.logical? k

/-- The physical records other than those of the blocks `bs` of die `d` are as they were. -/
def State.OtherBlocks (s t : State) (d : Nat) (bs : List Nat) : Prop :=
  ∀ e b : Nat, (e ≠ d ∨ b ∉ bs) → t.phys? e b = s.phys? e b

/-! ### Responses and answers -/

/-- R173: a maintenance command is being clocked in, and no operation keeps the part busy (R176). -/
def State.Ready (s : State) : Prop := s.phase = .command ∧ s.busy = .none

/-- R173: the state once a command was taken and this response formed, everything else as in `s`. -/
def State.responded (s : State) (status : MaintStatus) (payload : List Byte) : State :=
  { s with phase := .turnaround, response := responseFrame status payload }

/-- R124, R126, R132: a port whose head request was taken, with these frames as its answer. -/
def Port.answered (x : Port) (frames : List OutFrame) : Port :=
  { x with fifo := x.fifo.tail, credits := min (x.credits + 1) 8, outgoing := x.outgoing ++ frames }

/-- R130, R132: the state once the head request of port `p` was taken and answered with these frames, everything else as in `s`. -/
def State.answered (s : State) (p : PortId) (frames : List OutFrame) : State :=
  { s with ports := s.ports.set p (s.ports[p].answered frames), lastServed := some p }

/-! ### The arbiter's take (R130, R132) -/

/-- R130: the arbiter's choice is port `p`, and its head frame is `f`, which makes this request (`none`: of a form R188 refuses). -/
def State.Heads (s : State) (p : PortId) (f : Frame) (kind : Option RequestKind) : Prop :=
  s.arbiterChoice = some p ∧ s.ports[p].fifo.head? = some f ∧ f.request = kind

/-- R46: a grant to port `p` is below its quota, and `id` is the lowest free lease id. -/
def State.Grants (s : State) (p : PortId) (id : Nat) : Prop :=
  s.leasesOf p < s.params.leaseQuota[p] ∧ id < 64 ∧ s.lease? id = none ∧ ∀ i < id, s.lease? i ≠ none

/-! ### What a change leaves of records and dies (R8, R16, R36) -/

/-- R168: whether an entry holds the recorded fields that its record has in `s`. -/
def ShadowEntry.Holds (s : State) : ShadowEntry → Prop
  | .logical l f => (s.logical? l).map (·.toLogicalFields) = some f
  | .physical d b f => (s.phys? d b).map (·.toPhysFields) = some f

/-- R24, R164, R168, R169: what a change that hands records leaves of the save and the attention set: with no save running both are as they
were; a running save keeps its size, header, position and sum; its shadow table grows by records not yet delivered, as they stood before
the change, or it is full, which frees it, ends the save and raises OP_DONE. -/
def State.Saves (s : State) (v : SaveSweep) (a : CauseSet) : Prop :=
  (s.save.status ≠ .running → v = s.save ∧ a = s.attention)
    ∧ v.size = s.save.size ∧ v.header = s.save.header ∧ v.position = s.save.position ∧ v.sum = s.save.sum
    ∧ (v.status = s.save.status ∧ a = s.attention
          ∧ (∃ more, v.shadow = s.save.shadow ++ more ∧ ∀ e ∈ more, e.Holds s ∧ s.save.position ≤ e.index s.geometry)
        ∨ v.status = .shadowFull ∧ v.shadow = [] ∧ a = s.attention ||| 0b01000#5)

/-- The table with the logical record of `l` and what is kept for die `d` replaced. -/
def Table.put (t : Table) (l : Nat) (r : LogicalRecord) (d : Nat) (x : Die) : Table :=
  { t with logical := t.logical.set l r, dies := t.dies.set d x }

/-- R36: a die when block `b`, whose record was `old`, retires with this cause and erase count. -/
def Die.withRetired (x : Die) (width warn b : Nat) (old : PhysRecord) (cause : RetireCause) (count : Nat) : Die :=
  { x.writeBlock width b old { old with state := .retired, cause := some cause, eraseCount := count, owner := none, readers := 0 } with
    spares := x.spares.filter (· != b)
    eraseQueue := x.eraseQueue.filter (· != b)
    retired := x.retired + 1
    reserve := x.reserve - 1
    health := healthOf warn (x.reserve - 1) }

/-- R16: a die when block `b`, whose record was `old`, enters STALE and is disposed of: with readers it waits; without, it retires if weak
and joins the tail of the erase queue if not. -/
def Die.withStale (x : Die) (width warn b : Nat) (old : PhysRecord) : Die :=
  let r : PhysRecord := { old with state := .stale, owner := none }
  let y := x.writeBlock width b old r
  if old.readers ≠ 0 then y
  else
    match old.weak with
    | none => { y with eraseQueue := y.eraseQueue ++ [b] }
    | some .port => y.withRetired width warn b r .weak r.eraseCount
    | some .host => y.withRetired width warn b r .host r.eraseCount

/-- R16, R39, R51: what disposing of a block of die `d` does outside the die: a block that joined the erase queue makes the owning port be
considered, and a change of health raises DIE_HEALTH. -/
def State.disposed (s : State) (d : Nat) (old : PhysRecord) (before after : Health) : State :=
  (if old.readers = 0 ∧ old.weak = none then s.considerOwner d else s).raiseIf (after != before) .dieHealth

/-! ### The invariant of the ports (chapters 5 and 6) -/

/-- R116: a port that holds nothing. -/
def Port.Empty (x : Port) : Prop :=
  x.credits = 0 ∧ x.fifo = [] ∧ x.outgoing = [] ∧ x.notices = [] ∧ x.mapResetFlag = false ∧ x.orders = []

/-- What holds of a port between steps: R116, R118, R124, R126, R127, R128, R99, R100, R104. -/
structure Port.Kept (x : Port) : Prop where
  /-- R116: a port that is not UP holds nothing. -/
  down : x.link ≠ .up → x.Empty
  /-- R124. -/
  credits : x.credits ≤ 8
  /-- R126. -/
  fifo : x.fifo.length ≤ 8
  /-- R127. -/
  outgoing : x.outgoing.length ≤ 32
  /-- R128: the pending notice set is non-empty only while the queue is full. -/
  notices : x.notices ≠ [] ∨ x.mapResetFlag = true → x.outgoing.length = 32
  /-- R55. -/
  group : x.groupSize ≤ 16
  /-- R118. -/
  counters : x.frameErrors ≤ 65535 ∧ x.overruns ≤ 65535 ∧ x.discards ≤ 65535
  /-- R99, R104: at most four orders, at most three of them ERASE. -/
  orders : x.orders.length ≤ 4 ∧ x.orders.countP Order.isErase ≤ 3
  /-- R99: each order has a slot of its own. -/
  slots : (x.orders.map (·.slot)).Nodup ∧ ∀ o ∈ x.orders, o.slot < 4
  /-- R100: the issued orders carry distinct tags. -/
  tags : (x.orders.map (·.tag)).Nodup
  /-- R100: the issued orders carry the port's epoch. -/
  epochs : ∀ o ∈ x.orders, o.epoch = x.epoch

/-- What holds of the ports between steps. -/
structure State.PortsKept (s : State) : Prop where
  ports : ∀ p : PortId, s.ports[p].Kept
  /-- R71, R116: a port that holds a lease is UP. -/
  holders : ∀ (id : Nat) (l : Lease), s.lease? id = some l → s.ports[l.port].link = .up

/-! ### The invariant of the control of the table (chapters 3, 7, 8 and 9) -/

/-- Section 9.4: every parameter lies in its range. -/
def Params.InRange (x : Params) : Prop :=
  1 ≤ x.levelGap ∧ x.levelGap ≤ 16 ∧ x.spareWarn ≤ 64 ∧ x.leaseLimit ≤ 65535 ∧ 1 ≤ x.orderLimit ∧ x.orderLimit ≤ 65535
    ∧ ∀ p : PortId, 1 ≤ x.leaseQuota[p] ∧ x.leaseQuota[p] ≤ 64

/-- What holds of the table state, the operations and the leases between steps. -/
structure State.ControlKept (s : State) : Prop where
  /-- R135: a table exists in OFFLINE, ONLINE and DRAINING, and in no other state. -/
  table : s.table.isSome = s.tableState.hasTable
  /-- R183: the generation is 0 while no table exists. -/
  generation : s.table = none → s.generation = 0#32
  /-- R147: the drain kind is NONE outside DRAINING, and PLAIN or FORCED within it. -/
  drain : s.drainKind = .none ↔ s.tableState ≠ .draining
  /-- R144: a drain check is owed only while DRAINING. -/
  drainCheck : s.drainCheckDue = true → s.tableState = .draining
  /-- R139, R175: the busy operation is FORMAT exactly in FORMATTING. -/
  format : s.busy.code = 0x01#8 ↔ s.tableState = .formatting
  /-- R154, R155: a load runs exactly in LOADING. -/
  load : s.load.phase ≠ .idle ↔ s.tableState = .loading
  /-- R160: the busy operation is LOAD_END exactly while the load is CHECKING. -/
  loadEnd : s.busy.code = 0x02#8 ↔ s.load.phase = .checking
  /-- R166, R171: a save runs only while a table exists. -/
  save : s.save.status = .running → s.table.isSome
  /-- R168, R170: at most 128 shadow entries, and none when no save runs. -/
  shadow : s.save.shadow.length ≤ 128 ∧ (s.save.status ≠ .running → s.save.shadow = [])
  /-- R164: no more words are delivered than the image has. -/
  sweep : s.save.position ≤ s.save.size
  /-- R136: at most 256 entries, no two alike. -/
  badList : s.badList.length ≤ 256 ∧ s.badList.Nodup
  /-- 7.1.1, R144: leases and orders exist only in ONLINE and DRAINING. -/
  idle : s.tableState.inService = false → (∀ id : Nat, s.lease? id = none) ∧ ∀ p : PortId, s.ports[p].orders = []
  /-- R95, R145: a relocation waits for its order only in ONLINE. -/
  waiting : s.tableState ≠ .online → ∀ (d : Nat) (r : Relocation), s.relocation? d = some r → r.state ≠ .waitSlot
  /-- Section 9.4. -/
  params : s.params.InRange

/-! ### The invariant of the dies (chapters 1, 2 and 4) -/

/-- R20: a histogram counts, for each class 0 to 62, the blocks that `f` puts in it. -/
def Counts (h : List Nat) (f : PhysRecord → Option Nat) (blocks : List PhysRecord) : Prop :=
  h.length = 64 ∧ ∀ c : Nat, c ≤ 62 → h[c]? = some (blocks.countP fun r => f r == some c)

/-- What holds of die `d` of a table of geometry `g` between steps, under SPARE_WARN `warn`. -/
structure Die.Kept (g : Geometry) (warn d : Nat) (x : Die) : Prop where
  /-- R1: one record for each block. -/
  blocks : x.blocks.length = g.blocksPerDie
  /-- R20, R21: the wear histogram counts the blocks that are neither FIXED nor RETIRED, by class. -/
  wear : Counts x.wear (wearClass g.classWidth) x.blocks
  /-- R20, R21: the mapped histogram counts the MAPPED blocks, by class. -/
  mapped : Counts x.mapped (mappedClass g.classWidth) x.blocks
  /-- R38: the reserve law. -/
  reserve : x.reserve = (g.blocksPerDie : Int) - 2 - x.retired - g.homed d
  /-- R39: the health follows the reserve. -/
  health : x.health = healthOf warn x.reserve
  /-- R76: the rescue queue's depth, and no duplicates. -/
  rescue : x.rescue.length ≤ 16 ∧ x.rescue.Nodup

/-- What holds of a table's dies between steps (R1). -/
structure Table.Kept (warn : Nat) (t : Table) : Prop where
  dies : t.dies.length = t.geometry.dieCount
  die : ∀ (d : Nat) (x : Die), t.dies[d]? = some x → x.Kept t.geometry warn d

/-- The table, if there is one, is kept. -/
def State.DiesKept (s : State) : Prop := ∀ t : Table, s.table = some t → t.Kept s.params.spareWarn

/-! ### The invariant of the records (chapters 1 to 5) -/

/-- R1, R139: a geometry in the ranges FORMAT and a load admit. -/
def Geometry.InRange (g : Geometry) : Prop :=
  1 ≤ g.dieCount ∧ g.dieCount ≤ 8 ∧ 64 ≤ g.blocksPerDie ∧ g.blocksPerDie ≤ 1024 ∧ 1 ≤ g.logicalCount ∧ g.logicalCount ≤ 8192
    ∧ 1 ≤ g.classWidth ∧ g.classWidth ≤ 65535

/-- R8, R13, R153: what holds of the recorded fields of block `b` of a die. -/
structure PhysFields.Kept (b : Nat) (r : PhysFields) : Prop where
  /-- R13: blocks 0 and 1 are FIXED and no other block is; a FIXED block has no erase count. -/
  fixed : r.state = .fixed ↔ b < 2
  fixedCount : r.state = .fixed → r.eraseCount = 0
  /-- R9. -/
  count : r.eraseCount ≤ 16777215
  /-- R8: FIXED, SPARE and ALLOCATED blocks carry no mark. -/
  weak : r.weak ≠ none → r.state ≠ .fixed ∧ r.state ≠ .spare ∧ r.state ≠ .allocated
  /-- R12: a retire cause stands exactly at RETIRED. -/
  cause : r.cause ≠ none ↔ r.state = .retired

/-- R8, R10, R16: what holds of the record of block `b` of a die. -/
structure PhysRecord.Kept (b : Nat) (r : PhysRecord) : Prop where
  fields : r.toPhysFields.Kept b
  /-- R8: an owner stands exactly at MAPPED. -/
  owner : r.owner ≠ none ↔ r.state = .mapped
  /-- R10: a block with readers is MAPPED or STALE. -/
  readers : r.readers ≠ 0 → r.state = .mapped ∨ r.state = .stale
  /-- R16, R37: a weak STALE block has readers; without them it has retired. -/
  stale : r.state = .stale → r.weak ≠ none → r.readers ≠ 0

/-- What holds of the lists and counts of a die against its records. -/
structure Die.ListsKept (x : Die) : Prop where
  record : ∀ (b : Nat) (r : PhysRecord), x.blocks[b]? = some r → r.Kept b
  /-- R27: the spare list holds exactly the SPARE blocks, in ascending erase count and then index, none twice. -/
  spares : ∀ b : Nat, b ∈ x.spares ↔ ∃ r, x.blocks[b]? = some r ∧ r.state = .spare
  order : x.spares.Pairwise fun a b => x.eraseCount a < x.eraseCount b ∨ x.eraseCount a = x.eraseCount b ∧ a < b
  /-- R31: the erase queue holds exactly the STALE blocks without readers, none twice. -/
  queue : ∀ b : Nat, b ∈ x.eraseQueue ↔ ∃ r, x.blocks[b]? = some r ∧ r.state = .stale ∧ r.readers = 0
  queueOnce : x.eraseQueue.Nodup
  /-- R41: the retired count is the number of RETIRED blocks. -/
  retired : x.retired = x.blocks.countP fun r => r.state == .retired
  /-- R13, R20: index 63 of the wear histogram is 2, that of the mapped histogram 0. -/
  last : x.wear[63]? = some 2 ∧ x.mapped[63]? = some 0

/-- R10: how many entries of a lease name block `b` of die `d`; a WRITE lease has none. -/
def Lease.naming (d b : Nat) (x : Lease) : Nat :=
  match x.body with
  | .read entries => entries.countP fun e => e.die == d && e.block == b
  | .write _ _ _ => 0

/-- R10: how many entries of the open READ leases of which `p` holds name block `b` of die `d`. -/
def State.naming (s : State) (p : Lease → Bool) (d b : Nat) : Nat :=
  (s.leases.toList.map fun e => match e with | some x => if p x then x.naming d b else 0 | none => 0).sum

/-- R14: WRITE lease `id` has block `b` of die `d` as its destination. -/
def State.LeaseTakes (s : State) (id d b : Nat) : Prop :=
  ∃ (x : Lease) (l attempt : Nat), s.lease? id = some x ∧ x.body = .write l b attempt ∧ s.home l = d

/-- R14, R79: the relocation of die `d` has block `b` as its destination. -/
def State.RelocationTakes (s : State) (d b : Nat) : Prop := ∃ r : Relocation, s.relocation? d = some r ∧ r.destination = b

/-- R154, R156 to R159: what holds of a load that has kept no fault: what it has recorded is as long as the words received make it, and
each item of it passed its check. -/
structure LoadStream.Kept (x : LoadStream) : Prop where
  size : x.size = if x.received < 4 then none else some x.build.geometry.imageSize
  received : 4 ≤ x.received → x.received ≤ x.build.geometry.imageSize
  dies : 3 ≤ x.received → 1 ≤ x.build.geometry.dieCount ∧ x.build.geometry.dieCount ≤ 8 ∧ 64 ≤ x.build.geometry.blocksPerDie
    ∧ x.build.geometry.blocksPerDie ≤ 1024
  geometry : 5 ≤ x.received → x.build.geometry.InRange
  logicalCount : 4 ≤ x.received → 1 ≤ x.build.geometry.logicalCount ∧ x.build.geometry.logicalCount ≤ 8192
  logicalLength : x.build.logical.length = min (x.received - 16) x.build.geometry.logicalCount
  physicalLength : x.build.physical.length
    = min (x.received - 16 - x.build.geometry.logicalCount) (x.build.geometry.dieCount * x.build.geometry.blocksPerDie)
  logical : ∀ (l : Nat) (r : LogicalFields), x.build.logical[l]? = some r →
    (r.block = none → r.risk = .none) ∧ ∀ b : Nat, r.block = some b → 2 ≤ b ∧ b < x.build.geometry.blocksPerDie
  /-- R158: the named marks are the blocks the logical records name, each named once. -/
  named : ∀ d b : Nat, (d, b) ∈ x.named ↔ ∃ (l : Nat) (r : LogicalFields), x.build.logical[l]? = some r ∧ r.block = some b
    ∧ x.build.geometry.home l = d
  once : ∀ (k l b : Nat) (q r : LogicalFields), x.build.logical[k]? = some q → x.build.logical[l]? = some r → q.block = some b →
    r.block = some b → x.build.geometry.home k = x.build.geometry.home l → k = l
  physical : ∀ (k : Nat) (r : PhysFields), x.build.physical[k]? = some r → r.Kept (k % x.build.geometry.blocksPerDie)

/-- What holds between steps of the records and of all that names them. -/
structure State.RecordsKept (s : State) : Prop where
  /-- R1: the geometry's ranges, and one logical record for each L. -/
  table : ∀ t : Table, s.table = some t → t.geometry.InRange ∧ t.logical.length = t.geometry.logicalCount
  lists : ∀ (d : Nat) (x : Die), s.die? d = some x → x.ListsKept
  /-- R4: a MAPPED logical record names a block whose owner it is, and an owner names the block. -/
  mapped : ∀ (l b : Nat) (r : LogicalRecord), s.logical? l = some r → r.block = some b →
    ∃ y, s.phys? (s.home l) b = some y ∧ y.owner = some l
  owned : ∀ (d b l : Nat) (y : PhysRecord), s.phys? d b = some y → y.owner = some l →
    s.home l = d ∧ ∃ r, s.logical? l = some r ∧ r.block = some b
  /-- R6: an UNMAPPED logical block is at risk NONE. -/
  risk : ∀ (l : Nat) (r : LogicalRecord), s.logical? l = some r → r.block = none → r.risk = .none
  /-- R7: the links name the WRITE lease and the active relocation; a logical block has not both. -/
  writeLink : ∀ (l id : Nat) (r : LogicalRecord), s.logical? l = some r →
    (r.writeLease = some id ↔ ∃ (x : Lease) (b attempt : Nat), s.lease? id = some x ∧ x.body = .write l b attempt)
  relocationLink : ∀ (l : Nat) (r : LogicalRecord), s.logical? l = some r → (r.relocating = true ↔ s.activeRelocation l ≠ none)
  oneLink : ∀ (l : Nat) (r : LogicalRecord), s.logical? l = some r → r.writeLease = none ∨ r.relocating = false
  /-- R10: the readers of a block are the entries of READ leases that name it. -/
  readers : ∀ (d b : Nat) (y : PhysRecord), s.phys? d b = some y → y.readers = s.naming (fun _ => true) d b
  /-- R45, R10: a READ lease has 1 to 16 entries, each naming a block of the table, none twice. -/
  reads : ∀ (id : Nat) (x : Lease) (entries : List ReadEntry), s.lease? id = some x → x.body = .read entries →
    1 ≤ entries.length ∧ entries.length ≤ 16 ∧ (entries.map fun e => (e.die, e.block)).Nodup
      ∧ ∀ e ∈ entries, s.phys? e.die e.block ≠ none
  /-- R45, R65: a WRITE lease is on a logical block of the table and holds its first to third destination. -/
  writes : ∀ (id l b attempt : Nat) (x : Lease), s.lease? id = some x → x.body = .write l b attempt →
    s.logical? l ≠ none ∧ 1 ≤ attempt ∧ attempt ≤ 3
  /-- R14: a block is ALLOCATED exactly when it is the destination of one WRITE lease or of one relocation, and never of two. -/
  allocated : ∀ d b : Nat, (∃ y, s.phys? d b = some y ∧ y.state = .allocated) ↔ (∃ id, s.LeaseTakes id d b) ∨ s.RelocationTakes d b
  oneTaker : ∀ id d b : Nat, s.LeaseTakes id d b → ¬s.RelocationTakes d b ∧ ∀ i : Nat, s.LeaseTakes i d b → i = id
  /-- R79: a relocation stands in the slot of its logical block's home die, at its first to third destination; one that is active moves
  the logical block from its block, a RESCUE one from a weak block. -/
  relocation : ∀ (d : Nat) (r : Relocation), s.relocation? d = some r → s.home r.logical = d ∧ 1 ≤ r.attempt ∧ r.attempt ≤ 3
    ∧ r.source ≠ r.destination ∧ ∃ q, s.logical? r.logical = some q ∧ (r.active = true → q.block = some r.source
      ∧ (r.kind = .rescue → ∃ y, s.phys? d r.source = some y ∧ y.weak ≠ none))
  /-- R80: the waiting list holds the dies whose relocation waits, none twice. -/
  waiting : ∀ d : Nat, d ∈ s.waiting ↔ ∃ r, s.relocation? d = some r ∧ r.state = .waitSlot
  waitingOnce : s.waiting.Nodup
  /-- R79, R99: a relocation in COPYING or CANCELLED has its COPY order, on the port that owns the die, and each COPY order has its
  relocation. -/
  copies : ∀ (d : Nat) (r : Relocation) (tag epoch : Byte), s.relocation? d = some r →
    r.state = .copying tag epoch ∨ r.state = .cancelled tag epoch →
    ∃ o ∈ s.ports[s.diePort d].orders, o.die = d ∧ o.tag = tag ∧ o.epoch = epoch ∧ o.work = .copy r.source r.destination
  copyOrders : ∀ (p : PortId) (o : Order) (a b : Nat), o ∈ s.ports[p].orders → o.work = .copy a b → s.diePort o.die = p
    ∧ ∃ r, s.relocation? o.die = some r ∧ (r.state = .copying o.tag o.epoch ∨ r.state = .cancelled o.tag o.epoch) ∧ r.source = a
      ∧ r.destination = b
  /-- R17: a block is ERASING exactly when an ERASE order names it, and one alone does. -/
  erasing : ∀ (d b : Nat), (∃ y, s.phys? d b = some y ∧ y.state = .erasing) ↔
    ∃ (p : PortId) (o : Order), o ∈ s.ports[p].orders ∧ o.die = d ∧ o.work = .erase b
  eraseOrders : ∀ (p : PortId) (o : Order) (b : Nat), o ∈ s.ports[p].orders → o.work = .erase b → s.diePort o.die = p
    ∧ ∀ i ∈ s.ports[p].orders, i.die = o.die → i.work = .erase b → i = o
  /-- R76: an entry of a rescue queue is homed on its die, has no active relocation and is MAPPED to a weak block. -/
  rescue : ∀ d l : Nat, l ∈ s.rescue d → s.home l = d ∧ s.activeRelocation l = none
    ∧ ∃ (r : LogicalRecord) (b : Nat) (y : PhysRecord), s.logical? l = some r ∧ r.block = some b ∧ s.phys? d b = some y ∧ y.weak ≠ none
  /-- R139: a FORMAT that runs has a geometry in range. -/
  format : ∀ a : FormatArgs, s.busy = .format a → a.geometry.InRange
  load : s.load.phase ≠ .idle → s.load.fault = none → s.load.Kept

end Sys2Proof.Machine
end

