-- ==== Sys2Proof/Laws/State.lean ====
section
/-! SUPPORT. What each named update of the state does to each field: one lemma for each field and update. -/

namespace Sys2Proof.Machine

variable (s : State)

/-! `State.mapTable` -/

@[simp] theorem State.mapTable_tableState (f : Table → Table) : (s.mapTable f).tableState = s.tableState := rfl
@[simp] theorem State.mapTable_badList (f : Table → Table) : (s.mapTable f).badList = s.badList := rfl
@[simp] theorem State.mapTable_drainKind (f : Table → Table) : (s.mapTable f).drainKind = s.drainKind := rfl
@[simp] theorem State.mapTable_drainCheckDue (f : Table → Table) : (s.mapTable f).drainCheckDue = s.drainCheckDue := rfl
@[simp] theorem State.mapTable_table (f : Table → Table) : (s.mapTable f).table = s.table.map f := rfl
@[simp] theorem State.mapTable_generation (f : Table → Table) : (s.mapTable f).generation = s.generation := rfl
@[simp] theorem State.mapTable_lastServed (f : Table → Table) : (s.mapTable f).lastServed = s.lastServed := rfl
@[simp] theorem State.mapTable_leases (f : Table → Table) : (s.mapTable f).leases = s.leases := rfl
@[simp] theorem State.mapTable_relocations (f : Table → Table) : (s.mapTable f).relocations = s.relocations := rfl
@[simp] theorem State.mapTable_waiting (f : Table → Table) : (s.mapTable f).waiting = s.waiting := rfl
@[simp] theorem State.mapTable_evaluationsOwed (f : Table → Table) : (s.mapTable f).evaluationsOwed = s.evaluationsOwed := rfl
@[simp] theorem State.mapTable_ports (f : Table → Table) : (s.mapTable f).ports = s.ports := rfl
@[simp] theorem State.mapTable_load (f : Table → Table) : (s.mapTable f).load = s.load := rfl
@[simp] theorem State.mapTable_save (f : Table → Table) : (s.mapTable f).save = s.save := rfl
@[simp] theorem State.mapTable_phase (f : Table → Table) : (s.mapTable f).phase = s.phase := rfl
@[simp] theorem State.mapTable_response (f : Table → Table) : (s.mapTable f).response = s.response := rfl
@[simp] theorem State.mapTable_busy (f : Table → Table) : (s.mapTable f).busy = s.busy := rfl
@[simp] theorem State.mapTable_lastResult (f : Table → Table) : (s.mapTable f).lastResult = s.lastResult := rfl
@[simp] theorem State.mapTable_attention (f : Table → Table) : (s.mapTable f).attention = s.attention := rfl
@[simp] theorem State.mapTable_params (f : Table → Table) : (s.mapTable f).params = s.params := rfl
@[simp] theorem State.mapTable_pending (f : Table → Table) : (s.mapTable f).pending = s.pending := rfl

/-! `State.mapDie` -/

@[simp] theorem State.mapDie_tableState (d : Nat) (f : Die → Die) : (s.mapDie d f).tableState = s.tableState := rfl
@[simp] theorem State.mapDie_badList (d : Nat) (f : Die → Die) : (s.mapDie d f).badList = s.badList := rfl
@[simp] theorem State.mapDie_drainKind (d : Nat) (f : Die → Die) : (s.mapDie d f).drainKind = s.drainKind := rfl
@[simp] theorem State.mapDie_drainCheckDue (d : Nat) (f : Die → Die) : (s.mapDie d f).drainCheckDue = s.drainCheckDue := rfl
@[simp] theorem State.mapDie_table (d : Nat) (f : Die → Die) : (s.mapDie d f).table = s.table.map fun t => { t with dies := t.dies.modify d f } := rfl
@[simp] theorem State.mapDie_generation (d : Nat) (f : Die → Die) : (s.mapDie d f).generation = s.generation := rfl
@[simp] theorem State.mapDie_lastServed (d : Nat) (f : Die → Die) : (s.mapDie d f).lastServed = s.lastServed := rfl
@[simp] theorem State.mapDie_leases (d : Nat) (f : Die → Die) : (s.mapDie d f).leases = s.leases := rfl
@[simp] theorem State.mapDie_relocations (d : Nat) (f : Die → Die) : (s.mapDie d f).relocations = s.relocations := rfl
@[simp] theorem State.mapDie_waiting (d : Nat) (f : Die → Die) : (s.mapDie d f).waiting = s.waiting := rfl
@[simp] theorem State.mapDie_evaluationsOwed (d : Nat) (f : Die → Die) : (s.mapDie d f).evaluationsOwed = s.evaluationsOwed := rfl
@[simp] theorem State.mapDie_ports (d : Nat) (f : Die → Die) : (s.mapDie d f).ports = s.ports := rfl
@[simp] theorem State.mapDie_load (d : Nat) (f : Die → Die) : (s.mapDie d f).load = s.load := rfl
@[simp] theorem State.mapDie_save (d : Nat) (f : Die → Die) : (s.mapDie d f).save = s.save := rfl
@[simp] theorem State.mapDie_phase (d : Nat) (f : Die → Die) : (s.mapDie d f).phase = s.phase := rfl
@[simp] theorem State.mapDie_response (d : Nat) (f : Die → Die) : (s.mapDie d f).response = s.response := rfl
@[simp] theorem State.mapDie_busy (d : Nat) (f : Die → Die) : (s.mapDie d f).busy = s.busy := rfl
@[simp] theorem State.mapDie_lastResult (d : Nat) (f : Die → Die) : (s.mapDie d f).lastResult = s.lastResult := rfl
@[simp] theorem State.mapDie_attention (d : Nat) (f : Die → Die) : (s.mapDie d f).attention = s.attention := rfl
@[simp] theorem State.mapDie_params (d : Nat) (f : Die → Die) : (s.mapDie d f).params = s.params := rfl
@[simp] theorem State.mapDie_pending (d : Nat) (f : Die → Die) : (s.mapDie d f).pending = s.pending := rfl

/-! `State.mapPort` -/

@[simp] theorem State.mapPort_tableState (p : PortId) (f : Port → Port) : (s.mapPort p f).tableState = s.tableState := rfl
@[simp] theorem State.mapPort_badList (p : PortId) (f : Port → Port) : (s.mapPort p f).badList = s.badList := rfl
@[simp] theorem State.mapPort_drainKind (p : PortId) (f : Port → Port) : (s.mapPort p f).drainKind = s.drainKind := rfl
@[simp] theorem State.mapPort_drainCheckDue (p : PortId) (f : Port → Port) : (s.mapPort p f).drainCheckDue = s.drainCheckDue := rfl
@[simp] theorem State.mapPort_table (p : PortId) (f : Port → Port) : (s.mapPort p f).table = s.table := rfl
@[simp] theorem State.mapPort_generation (p : PortId) (f : Port → Port) : (s.mapPort p f).generation = s.generation := rfl
@[simp] theorem State.mapPort_lastServed (p : PortId) (f : Port → Port) : (s.mapPort p f).lastServed = s.lastServed := rfl
@[simp] theorem State.mapPort_leases (p : PortId) (f : Port → Port) : (s.mapPort p f).leases = s.leases := rfl
@[simp] theorem State.mapPort_relocations (p : PortId) (f : Port → Port) : (s.mapPort p f).relocations = s.relocations := rfl
@[simp] theorem State.mapPort_waiting (p : PortId) (f : Port → Port) : (s.mapPort p f).waiting = s.waiting := rfl
@[simp] theorem State.mapPort_evaluationsOwed (p : PortId) (f : Port → Port) : (s.mapPort p f).evaluationsOwed = s.evaluationsOwed := rfl
@[simp] theorem State.mapPort_ports (p : PortId) (f : Port → Port) : (s.mapPort p f).ports = s.ports.set p (f s.ports[p]) := rfl
@[simp] theorem State.mapPort_load (p : PortId) (f : Port → Port) : (s.mapPort p f).load = s.load := rfl
@[simp] theorem State.mapPort_save (p : PortId) (f : Port → Port) : (s.mapPort p f).save = s.save := rfl
@[simp] theorem State.mapPort_phase (p : PortId) (f : Port → Port) : (s.mapPort p f).phase = s.phase := rfl
@[simp] theorem State.mapPort_response (p : PortId) (f : Port → Port) : (s.mapPort p f).response = s.response := rfl
@[simp] theorem State.mapPort_busy (p : PortId) (f : Port → Port) : (s.mapPort p f).busy = s.busy := rfl
@[simp] theorem State.mapPort_lastResult (p : PortId) (f : Port → Port) : (s.mapPort p f).lastResult = s.lastResult := rfl
@[simp] theorem State.mapPort_attention (p : PortId) (f : Port → Port) : (s.mapPort p f).attention = s.attention := rfl
@[simp] theorem State.mapPort_params (p : PortId) (f : Port → Port) : (s.mapPort p f).params = s.params := rfl
@[simp] theorem State.mapPort_pending (p : PortId) (f : Port → Port) : (s.mapPort p f).pending = s.pending := rfl

/-! `State.setLease` -/

@[simp] theorem State.setLease_tableState (id : Nat) (o : Option Lease) : (s.setLease id o).tableState = s.tableState := rfl
@[simp] theorem State.setLease_badList (id : Nat) (o : Option Lease) : (s.setLease id o).badList = s.badList := rfl
@[simp] theorem State.setLease_drainKind (id : Nat) (o : Option Lease) : (s.setLease id o).drainKind = s.drainKind := rfl
@[simp] theorem State.setLease_drainCheckDue (id : Nat) (o : Option Lease) : (s.setLease id o).drainCheckDue = s.drainCheckDue := rfl
@[simp] theorem State.setLease_table (id : Nat) (o : Option Lease) : (s.setLease id o).table = s.table := rfl
@[simp] theorem State.setLease_generation (id : Nat) (o : Option Lease) : (s.setLease id o).generation = s.generation := rfl
@[simp] theorem State.setLease_lastServed (id : Nat) (o : Option Lease) : (s.setLease id o).lastServed = s.lastServed := rfl
@[simp] theorem State.setLease_leases (id : Nat) (o : Option Lease) : (s.setLease id o).leases = s.leases.setIfInBounds id o := rfl
@[simp] theorem State.setLease_relocations (id : Nat) (o : Option Lease) : (s.setLease id o).relocations = s.relocations := rfl
@[simp] theorem State.setLease_waiting (id : Nat) (o : Option Lease) : (s.setLease id o).waiting = s.waiting := rfl
@[simp] theorem State.setLease_evaluationsOwed (id : Nat) (o : Option Lease) : (s.setLease id o).evaluationsOwed = s.evaluationsOwed := rfl
@[simp] theorem State.setLease_ports (id : Nat) (o : Option Lease) : (s.setLease id o).ports = s.ports := rfl
@[simp] theorem State.setLease_load (id : Nat) (o : Option Lease) : (s.setLease id o).load = s.load := rfl
@[simp] theorem State.setLease_save (id : Nat) (o : Option Lease) : (s.setLease id o).save = s.save := rfl
@[simp] theorem State.setLease_phase (id : Nat) (o : Option Lease) : (s.setLease id o).phase = s.phase := rfl
@[simp] theorem State.setLease_response (id : Nat) (o : Option Lease) : (s.setLease id o).response = s.response := rfl
@[simp] theorem State.setLease_busy (id : Nat) (o : Option Lease) : (s.setLease id o).busy = s.busy := rfl
@[simp] theorem State.setLease_lastResult (id : Nat) (o : Option Lease) : (s.setLease id o).lastResult = s.lastResult := rfl
@[simp] theorem State.setLease_attention (id : Nat) (o : Option Lease) : (s.setLease id o).attention = s.attention := rfl
@[simp] theorem State.setLease_params (id : Nat) (o : Option Lease) : (s.setLease id o).params = s.params := rfl
@[simp] theorem State.setLease_pending (id : Nat) (o : Option Lease) : (s.setLease id o).pending = s.pending := rfl

/-! `State.setRelocation` -/

@[simp] theorem State.setRelocation_tableState (d : Nat) (o : Option Relocation) : (s.setRelocation d o).tableState = s.tableState := rfl
@[simp] theorem State.setRelocation_badList (d : Nat) (o : Option Relocation) : (s.setRelocation d o).badList = s.badList := rfl
@[simp] theorem State.setRelocation_drainKind (d : Nat) (o : Option Relocation) : (s.setRelocation d o).drainKind = s.drainKind := rfl
@[simp] theorem State.setRelocation_drainCheckDue (d : Nat) (o : Option Relocation) : (s.setRelocation d o).drainCheckDue = s.drainCheckDue := rfl
@[simp] theorem State.setRelocation_table (d : Nat) (o : Option Relocation) : (s.setRelocation d o).table = s.table := rfl
@[simp] theorem State.setRelocation_generation (d : Nat) (o : Option Relocation) : (s.setRelocation d o).generation = s.generation := rfl
@[simp] theorem State.setRelocation_lastServed (d : Nat) (o : Option Relocation) : (s.setRelocation d o).lastServed = s.lastServed := rfl
@[simp] theorem State.setRelocation_leases (d : Nat) (o : Option Relocation) : (s.setRelocation d o).leases = s.leases := rfl
@[simp] theorem State.setRelocation_relocations (d : Nat) (o : Option Relocation) : (s.setRelocation d o).relocations = s.relocations.setIfInBounds d o := rfl
@[simp] theorem State.setRelocation_waiting (d : Nat) (o : Option Relocation) : (s.setRelocation d o).waiting = s.waiting := rfl
@[simp] theorem State.setRelocation_evaluationsOwed (d : Nat) (o : Option Relocation) : (s.setRelocation d o).evaluationsOwed = s.evaluationsOwed := rfl
@[simp] theorem State.setRelocation_ports (d : Nat) (o : Option Relocation) : (s.setRelocation d o).ports = s.ports := rfl
@[simp] theorem State.setRelocation_load (d : Nat) (o : Option Relocation) : (s.setRelocation d o).load = s.load := rfl
@[simp] theorem State.setRelocation_save (d : Nat) (o : Option Relocation) : (s.setRelocation d o).save = s.save := rfl
@[simp] theorem State.setRelocation_phase (d : Nat) (o : Option Relocation) : (s.setRelocation d o).phase = s.phase := rfl
@[simp] theorem State.setRelocation_response (d : Nat) (o : Option Relocation) : (s.setRelocation d o).response = s.response := rfl
@[simp] theorem State.setRelocation_busy (d : Nat) (o : Option Relocation) : (s.setRelocation d o).busy = s.busy := rfl
@[simp] theorem State.setRelocation_lastResult (d : Nat) (o : Option Relocation) : (s.setRelocation d o).lastResult = s.lastResult := rfl
@[simp] theorem State.setRelocation_attention (d : Nat) (o : Option Relocation) : (s.setRelocation d o).attention = s.attention := rfl
@[simp] theorem State.setRelocation_params (d : Nat) (o : Option Relocation) : (s.setRelocation d o).params = s.params := rfl
@[simp] theorem State.setRelocation_pending (d : Nat) (o : Option Relocation) : (s.setRelocation d o).pending = s.pending := rfl

/-! `State.setWaiting` -/

@[simp] theorem State.setWaiting_tableState (w : List Nat) : (s.setWaiting w).tableState = s.tableState := rfl
@[simp] theorem State.setWaiting_badList (w : List Nat) : (s.setWaiting w).badList = s.badList := rfl
@[simp] theorem State.setWaiting_drainKind (w : List Nat) : (s.setWaiting w).drainKind = s.drainKind := rfl
@[simp] theorem State.setWaiting_drainCheckDue (w : List Nat) : (s.setWaiting w).drainCheckDue = s.drainCheckDue := rfl
@[simp] theorem State.setWaiting_table (w : List Nat) : (s.setWaiting w).table = s.table := rfl
@[simp] theorem State.setWaiting_generation (w : List Nat) : (s.setWaiting w).generation = s.generation := rfl
@[simp] theorem State.setWaiting_lastServed (w : List Nat) : (s.setWaiting w).lastServed = s.lastServed := rfl
@[simp] theorem State.setWaiting_leases (w : List Nat) : (s.setWaiting w).leases = s.leases := rfl
@[simp] theorem State.setWaiting_relocations (w : List Nat) : (s.setWaiting w).relocations = s.relocations := rfl
@[simp] theorem State.setWaiting_waiting (w : List Nat) : (s.setWaiting w).waiting = w := rfl
@[simp] theorem State.setWaiting_evaluationsOwed (w : List Nat) : (s.setWaiting w).evaluationsOwed = s.evaluationsOwed := rfl
@[simp] theorem State.setWaiting_ports (w : List Nat) : (s.setWaiting w).ports = s.ports := rfl
@[simp] theorem State.setWaiting_load (w : List Nat) : (s.setWaiting w).load = s.load := rfl
@[simp] theorem State.setWaiting_save (w : List Nat) : (s.setWaiting w).save = s.save := rfl
@[simp] theorem State.setWaiting_phase (w : List Nat) : (s.setWaiting w).phase = s.phase := rfl
@[simp] theorem State.setWaiting_response (w : List Nat) : (s.setWaiting w).response = s.response := rfl
@[simp] theorem State.setWaiting_busy (w : List Nat) : (s.setWaiting w).busy = s.busy := rfl
@[simp] theorem State.setWaiting_lastResult (w : List Nat) : (s.setWaiting w).lastResult = s.lastResult := rfl
@[simp] theorem State.setWaiting_attention (w : List Nat) : (s.setWaiting w).attention = s.attention := rfl
@[simp] theorem State.setWaiting_params (w : List Nat) : (s.setWaiting w).params = s.params := rfl
@[simp] theorem State.setWaiting_pending (w : List Nat) : (s.setWaiting w).pending = s.pending := rfl

/-! `State.triggerDie` -/

@[simp] theorem State.triggerDie_tableState (d : Nat) : (s.triggerDie d).tableState = s.tableState := rfl
@[simp] theorem State.triggerDie_badList (d : Nat) : (s.triggerDie d).badList = s.badList := rfl
@[simp] theorem State.triggerDie_drainKind (d : Nat) : (s.triggerDie d).drainKind = s.drainKind := rfl
@[simp] theorem State.triggerDie_drainCheckDue (d : Nat) : (s.triggerDie d).drainCheckDue = s.drainCheckDue := rfl
@[simp] theorem State.triggerDie_table (d : Nat) : (s.triggerDie d).table = s.table := rfl
@[simp] theorem State.triggerDie_generation (d : Nat) : (s.triggerDie d).generation = s.generation := rfl
@[simp] theorem State.triggerDie_lastServed (d : Nat) : (s.triggerDie d).lastServed = s.lastServed := rfl
@[simp] theorem State.triggerDie_leases (d : Nat) : (s.triggerDie d).leases = s.leases := rfl
@[simp] theorem State.triggerDie_relocations (d : Nat) : (s.triggerDie d).relocations = s.relocations := rfl
@[simp] theorem State.triggerDie_waiting (d : Nat) : (s.triggerDie d).waiting = s.waiting := rfl
@[simp] theorem State.triggerDie_evaluationsOwed (d : Nat) : (s.triggerDie d).evaluationsOwed = s.evaluationsOwed.setIfInBounds d ((s.evaluationsOwed[d]?).getD 0 + 1) := rfl
@[simp] theorem State.triggerDie_ports (d : Nat) : (s.triggerDie d).ports = s.ports := rfl
@[simp] theorem State.triggerDie_load (d : Nat) : (s.triggerDie d).load = s.load := rfl
@[simp] theorem State.triggerDie_save (d : Nat) : (s.triggerDie d).save = s.save := rfl
@[simp] theorem State.triggerDie_phase (d : Nat) : (s.triggerDie d).phase = s.phase := rfl
@[simp] theorem State.triggerDie_response (d : Nat) : (s.triggerDie d).response = s.response := rfl
@[simp] theorem State.triggerDie_busy (d : Nat) : (s.triggerDie d).busy = s.busy := rfl
@[simp] theorem State.triggerDie_lastResult (d : Nat) : (s.triggerDie d).lastResult = s.lastResult := rfl
@[simp] theorem State.triggerDie_attention (d : Nat) : (s.triggerDie d).attention = s.attention := rfl
@[simp] theorem State.triggerDie_params (d : Nat) : (s.triggerDie d).params = s.params := rfl
@[simp] theorem State.triggerDie_pending (d : Nat) : (s.triggerDie d).pending = s.pending := rfl

/-! `State.consider` -/

@[simp] theorem State.consider_tableState (p : PortId) : (s.consider p).tableState = s.tableState := rfl
@[simp] theorem State.consider_badList (p : PortId) : (s.consider p).badList = s.badList := rfl
@[simp] theorem State.consider_drainKind (p : PortId) : (s.consider p).drainKind = s.drainKind := rfl
@[simp] theorem State.consider_drainCheckDue (p : PortId) : (s.consider p).drainCheckDue = s.drainCheckDue := rfl
@[simp] theorem State.consider_table (p : PortId) : (s.consider p).table = s.table := rfl
@[simp] theorem State.consider_generation (p : PortId) : (s.consider p).generation = s.generation := rfl
@[simp] theorem State.consider_lastServed (p : PortId) : (s.consider p).lastServed = s.lastServed := rfl
@[simp] theorem State.consider_leases (p : PortId) : (s.consider p).leases = s.leases := rfl
@[simp] theorem State.consider_relocations (p : PortId) : (s.consider p).relocations = s.relocations := rfl
@[simp] theorem State.consider_waiting (p : PortId) : (s.consider p).waiting = s.waiting := rfl
@[simp] theorem State.consider_evaluationsOwed (p : PortId) : (s.consider p).evaluationsOwed = s.evaluationsOwed := rfl
@[simp] theorem State.consider_ports (p : PortId) : (s.consider p).ports = s.ports.set p { s.ports[p] with issueDue := true } := rfl
@[simp] theorem State.consider_load (p : PortId) : (s.consider p).load = s.load := rfl
@[simp] theorem State.consider_save (p : PortId) : (s.consider p).save = s.save := rfl
@[simp] theorem State.consider_phase (p : PortId) : (s.consider p).phase = s.phase := rfl
@[simp] theorem State.consider_response (p : PortId) : (s.consider p).response = s.response := rfl
@[simp] theorem State.consider_busy (p : PortId) : (s.consider p).busy = s.busy := rfl
@[simp] theorem State.consider_lastResult (p : PortId) : (s.consider p).lastResult = s.lastResult := rfl
@[simp] theorem State.consider_attention (p : PortId) : (s.consider p).attention = s.attention := rfl
@[simp] theorem State.consider_params (p : PortId) : (s.consider p).params = s.params := rfl
@[simp] theorem State.consider_pending (p : PortId) : (s.consider p).pending = s.pending := rfl

/-! `State.considerOwner` -/

@[simp] theorem State.considerOwner_tableState (d : Nat) : (s.considerOwner d).tableState = s.tableState := rfl
@[simp] theorem State.considerOwner_badList (d : Nat) : (s.considerOwner d).badList = s.badList := rfl
@[simp] theorem State.considerOwner_drainKind (d : Nat) : (s.considerOwner d).drainKind = s.drainKind := rfl
@[simp] theorem State.considerOwner_drainCheckDue (d : Nat) : (s.considerOwner d).drainCheckDue = s.drainCheckDue := rfl
@[simp] theorem State.considerOwner_table (d : Nat) : (s.considerOwner d).table = s.table := rfl
@[simp] theorem State.considerOwner_generation (d : Nat) : (s.considerOwner d).generation = s.generation := rfl
@[simp] theorem State.considerOwner_lastServed (d : Nat) : (s.considerOwner d).lastServed = s.lastServed := rfl
@[simp] theorem State.considerOwner_leases (d : Nat) : (s.considerOwner d).leases = s.leases := rfl
@[simp] theorem State.considerOwner_relocations (d : Nat) : (s.considerOwner d).relocations = s.relocations := rfl
@[simp] theorem State.considerOwner_waiting (d : Nat) : (s.considerOwner d).waiting = s.waiting := rfl
@[simp] theorem State.considerOwner_evaluationsOwed (d : Nat) : (s.considerOwner d).evaluationsOwed = s.evaluationsOwed := rfl
@[simp] theorem State.considerOwner_ports (d : Nat) : (s.considerOwner d).ports = s.ports.set (s.diePort d) { s.ports[s.diePort d] with issueDue := true } := rfl
@[simp] theorem State.considerOwner_load (d : Nat) : (s.considerOwner d).load = s.load := rfl
@[simp] theorem State.considerOwner_save (d : Nat) : (s.considerOwner d).save = s.save := rfl
@[simp] theorem State.considerOwner_phase (d : Nat) : (s.considerOwner d).phase = s.phase := rfl
@[simp] theorem State.considerOwner_response (d : Nat) : (s.considerOwner d).response = s.response := rfl
@[simp] theorem State.considerOwner_busy (d : Nat) : (s.considerOwner d).busy = s.busy := rfl
@[simp] theorem State.considerOwner_lastResult (d : Nat) : (s.considerOwner d).lastResult = s.lastResult := rfl
@[simp] theorem State.considerOwner_attention (d : Nat) : (s.considerOwner d).attention = s.attention := rfl
@[simp] theorem State.considerOwner_params (d : Nat) : (s.considerOwner d).params = s.params := rfl
@[simp] theorem State.considerOwner_pending (d : Nat) : (s.considerOwner d).pending = s.pending := rfl

/-! `State.place` -/

@[simp] theorem State.place_tableState (p : PortId) (f : OutFrame) : (s.place p f).tableState = s.tableState := rfl
@[simp] theorem State.place_badList (p : PortId) (f : OutFrame) : (s.place p f).badList = s.badList := rfl
@[simp] theorem State.place_drainKind (p : PortId) (f : OutFrame) : (s.place p f).drainKind = s.drainKind := rfl
@[simp] theorem State.place_drainCheckDue (p : PortId) (f : OutFrame) : (s.place p f).drainCheckDue = s.drainCheckDue := rfl
@[simp] theorem State.place_table (p : PortId) (f : OutFrame) : (s.place p f).table = s.table := rfl
@[simp] theorem State.place_generation (p : PortId) (f : OutFrame) : (s.place p f).generation = s.generation := rfl
@[simp] theorem State.place_lastServed (p : PortId) (f : OutFrame) : (s.place p f).lastServed = s.lastServed := rfl
@[simp] theorem State.place_leases (p : PortId) (f : OutFrame) : (s.place p f).leases = s.leases := rfl
@[simp] theorem State.place_relocations (p : PortId) (f : OutFrame) : (s.place p f).relocations = s.relocations := rfl
@[simp] theorem State.place_waiting (p : PortId) (f : OutFrame) : (s.place p f).waiting = s.waiting := rfl
@[simp] theorem State.place_evaluationsOwed (p : PortId) (f : OutFrame) : (s.place p f).evaluationsOwed = s.evaluationsOwed := rfl
@[simp] theorem State.place_ports (p : PortId) (f : OutFrame) : (s.place p f).ports = s.ports.set p { s.ports[p] with outgoing := s.ports[p].outgoing ++ [f] } := rfl
@[simp] theorem State.place_load (p : PortId) (f : OutFrame) : (s.place p f).load = s.load := rfl
@[simp] theorem State.place_save (p : PortId) (f : OutFrame) : (s.place p f).save = s.save := rfl
@[simp] theorem State.place_phase (p : PortId) (f : OutFrame) : (s.place p f).phase = s.phase := rfl
@[simp] theorem State.place_response (p : PortId) (f : OutFrame) : (s.place p f).response = s.response := rfl
@[simp] theorem State.place_busy (p : PortId) (f : OutFrame) : (s.place p f).busy = s.busy := rfl
@[simp] theorem State.place_lastResult (p : PortId) (f : OutFrame) : (s.place p f).lastResult = s.lastResult := rfl
@[simp] theorem State.place_attention (p : PortId) (f : OutFrame) : (s.place p f).attention = s.attention := rfl
@[simp] theorem State.place_params (p : PortId) (f : OutFrame) : (s.place p f).params = s.params := rfl
@[simp] theorem State.place_pending (p : PortId) (f : OutFrame) : (s.place p f).pending = s.pending := rfl

/-! `State.notify` -/

@[simp] theorem State.notify_tableState (p : PortId) (n : LeaseNotice) : (s.notify p n).tableState = s.tableState := rfl
@[simp] theorem State.notify_badList (p : PortId) (n : LeaseNotice) : (s.notify p n).badList = s.badList := rfl
@[simp] theorem State.notify_drainKind (p : PortId) (n : LeaseNotice) : (s.notify p n).drainKind = s.drainKind := rfl
@[simp] theorem State.notify_drainCheckDue (p : PortId) (n : LeaseNotice) : (s.notify p n).drainCheckDue = s.drainCheckDue := rfl
@[simp] theorem State.notify_table (p : PortId) (n : LeaseNotice) : (s.notify p n).table = s.table := rfl
@[simp] theorem State.notify_generation (p : PortId) (n : LeaseNotice) : (s.notify p n).generation = s.generation := rfl
@[simp] theorem State.notify_lastServed (p : PortId) (n : LeaseNotice) : (s.notify p n).lastServed = s.lastServed := rfl
@[simp] theorem State.notify_leases (p : PortId) (n : LeaseNotice) : (s.notify p n).leases = s.leases := rfl
@[simp] theorem State.notify_relocations (p : PortId) (n : LeaseNotice) : (s.notify p n).relocations = s.relocations := rfl
@[simp] theorem State.notify_waiting (p : PortId) (n : LeaseNotice) : (s.notify p n).waiting = s.waiting := rfl
@[simp] theorem State.notify_evaluationsOwed (p : PortId) (n : LeaseNotice) : (s.notify p n).evaluationsOwed = s.evaluationsOwed := rfl
@[simp] theorem State.notify_load (p : PortId) (n : LeaseNotice) : (s.notify p n).load = s.load := rfl
@[simp] theorem State.notify_save (p : PortId) (n : LeaseNotice) : (s.notify p n).save = s.save := rfl
@[simp] theorem State.notify_phase (p : PortId) (n : LeaseNotice) : (s.notify p n).phase = s.phase := rfl
@[simp] theorem State.notify_response (p : PortId) (n : LeaseNotice) : (s.notify p n).response = s.response := rfl
@[simp] theorem State.notify_busy (p : PortId) (n : LeaseNotice) : (s.notify p n).busy = s.busy := rfl
@[simp] theorem State.notify_lastResult (p : PortId) (n : LeaseNotice) : (s.notify p n).lastResult = s.lastResult := rfl
@[simp] theorem State.notify_attention (p : PortId) (n : LeaseNotice) : (s.notify p n).attention = s.attention := rfl
@[simp] theorem State.notify_params (p : PortId) (n : LeaseNotice) : (s.notify p n).params = s.params := rfl
@[simp] theorem State.notify_pending (p : PortId) (n : LeaseNotice) : (s.notify p n).pending = s.pending := rfl

/-! `State.raise` -/

@[simp] theorem State.raise_tableState (x : Cause) : (s.raise x).tableState = s.tableState := rfl
@[simp] theorem State.raise_badList (x : Cause) : (s.raise x).badList = s.badList := rfl
@[simp] theorem State.raise_drainKind (x : Cause) : (s.raise x).drainKind = s.drainKind := rfl
@[simp] theorem State.raise_drainCheckDue (x : Cause) : (s.raise x).drainCheckDue = s.drainCheckDue := rfl
@[simp] theorem State.raise_table (x : Cause) : (s.raise x).table = s.table := rfl
@[simp] theorem State.raise_generation (x : Cause) : (s.raise x).generation = s.generation := rfl
@[simp] theorem State.raise_lastServed (x : Cause) : (s.raise x).lastServed = s.lastServed := rfl
@[simp] theorem State.raise_leases (x : Cause) : (s.raise x).leases = s.leases := rfl
@[simp] theorem State.raise_relocations (x : Cause) : (s.raise x).relocations = s.relocations := rfl
@[simp] theorem State.raise_waiting (x : Cause) : (s.raise x).waiting = s.waiting := rfl
@[simp] theorem State.raise_evaluationsOwed (x : Cause) : (s.raise x).evaluationsOwed = s.evaluationsOwed := rfl
@[simp] theorem State.raise_ports (x : Cause) : (s.raise x).ports = s.ports := rfl
@[simp] theorem State.raise_load (x : Cause) : (s.raise x).load = s.load := rfl
@[simp] theorem State.raise_save (x : Cause) : (s.raise x).save = s.save := rfl
@[simp] theorem State.raise_phase (x : Cause) : (s.raise x).phase = s.phase := rfl
@[simp] theorem State.raise_response (x : Cause) : (s.raise x).response = s.response := rfl
@[simp] theorem State.raise_busy (x : Cause) : (s.raise x).busy = s.busy := rfl
@[simp] theorem State.raise_lastResult (x : Cause) : (s.raise x).lastResult = s.lastResult := rfl
@[simp] theorem State.raise_attention (x : Cause) : (s.raise x).attention = s.attention ||| x.bit := rfl
@[simp] theorem State.raise_params (x : Cause) : (s.raise x).params = s.params := rfl
@[simp] theorem State.raise_pending (x : Cause) : (s.raise x).pending = s.pending := rfl

/-! `State.discardTable` -/

@[simp] theorem State.discardTable_tableState : (s.discardTable).tableState = s.tableState := rfl
@[simp] theorem State.discardTable_badList : (s.discardTable).badList = s.badList := rfl
@[simp] theorem State.discardTable_drainKind : (s.discardTable).drainKind = s.drainKind := rfl
@[simp] theorem State.discardTable_drainCheckDue : (s.discardTable).drainCheckDue = s.drainCheckDue := rfl
@[simp] theorem State.discardTable_table : (s.discardTable).table = none := rfl
@[simp] theorem State.discardTable_generation : (s.discardTable).generation = 0#32 := rfl
@[simp] theorem State.discardTable_lastServed : (s.discardTable).lastServed = s.lastServed := rfl
@[simp] theorem State.discardTable_leases : (s.discardTable).leases = s.leases := rfl
@[simp] theorem State.discardTable_relocations : (s.discardTable).relocations = s.relocations := rfl
@[simp] theorem State.discardTable_waiting : (s.discardTable).waiting = s.waiting := rfl
@[simp] theorem State.discardTable_evaluationsOwed : (s.discardTable).evaluationsOwed = Vector.replicate 8 0 := rfl
@[simp] theorem State.discardTable_ports : (s.discardTable).ports = s.ports := rfl
@[simp] theorem State.discardTable_load : (s.discardTable).load = s.load := rfl
@[simp] theorem State.discardTable_save : (s.discardTable).save = s.save := rfl
@[simp] theorem State.discardTable_phase : (s.discardTable).phase = s.phase := rfl
@[simp] theorem State.discardTable_response : (s.discardTable).response = s.response := rfl
@[simp] theorem State.discardTable_busy : (s.discardTable).busy = s.busy := rfl
@[simp] theorem State.discardTable_lastResult : (s.discardTable).lastResult = s.lastResult := rfl
@[simp] theorem State.discardTable_attention : (s.discardTable).attention = s.attention := rfl
@[simp] theorem State.discardTable_params : (s.discardTable).params = s.params := rfl
@[simp] theorem State.discardTable_pending : (s.discardTable).pending = s.pending := rfl

/-! `State.takeHead` -/

@[simp] theorem State.takeHead_tableState (p : PortId) : (s.takeHead p).tableState = s.tableState := rfl
@[simp] theorem State.takeHead_badList (p : PortId) : (s.takeHead p).badList = s.badList := rfl
@[simp] theorem State.takeHead_drainKind (p : PortId) : (s.takeHead p).drainKind = s.drainKind := rfl
@[simp] theorem State.takeHead_drainCheckDue (p : PortId) : (s.takeHead p).drainCheckDue = s.drainCheckDue := rfl
@[simp] theorem State.takeHead_table (p : PortId) : (s.takeHead p).table = s.table := rfl
@[simp] theorem State.takeHead_generation (p : PortId) : (s.takeHead p).generation = s.generation := rfl
@[simp] theorem State.takeHead_lastServed (p : PortId) : (s.takeHead p).lastServed = some p := rfl
@[simp] theorem State.takeHead_leases (p : PortId) : (s.takeHead p).leases = s.leases := rfl
@[simp] theorem State.takeHead_relocations (p : PortId) : (s.takeHead p).relocations = s.relocations := rfl
@[simp] theorem State.takeHead_waiting (p : PortId) : (s.takeHead p).waiting = s.waiting := rfl
@[simp] theorem State.takeHead_evaluationsOwed (p : PortId) : (s.takeHead p).evaluationsOwed = s.evaluationsOwed := rfl
@[simp] theorem State.takeHead_ports (p : PortId) : (s.takeHead p).ports = s.ports.set p { s.ports[p] with fifo := s.ports[p].fifo.tail, credits := creditUp s.ports[p].credits } := rfl
@[simp] theorem State.takeHead_load (p : PortId) : (s.takeHead p).load = s.load := rfl
@[simp] theorem State.takeHead_save (p : PortId) : (s.takeHead p).save = s.save := rfl
@[simp] theorem State.takeHead_phase (p : PortId) : (s.takeHead p).phase = s.phase := rfl
@[simp] theorem State.takeHead_response (p : PortId) : (s.takeHead p).response = s.response := rfl
@[simp] theorem State.takeHead_busy (p : PortId) : (s.takeHead p).busy = s.busy := rfl
@[simp] theorem State.takeHead_lastResult (p : PortId) : (s.takeHead p).lastResult = s.lastResult := rfl
@[simp] theorem State.takeHead_attention (p : PortId) : (s.takeHead p).attention = s.attention := rfl
@[simp] theorem State.takeHead_params (p : PortId) : (s.takeHead p).params = s.params := rfl
@[simp] theorem State.takeHead_pending (p : PortId) : (s.takeHead p).pending = s.pending := rfl

/-! `State.answer` -/

@[simp] theorem State.answer_tableState (p : PortId) (f : Frame) (a : AnswerStatus) (l : Byte) (ws : List Word) : (s.answer p f a l ws).tableState = s.tableState := rfl
@[simp] theorem State.answer_badList (p : PortId) (f : Frame) (a : AnswerStatus) (l : Byte) (ws : List Word) : (s.answer p f a l ws).badList = s.badList := rfl
@[simp] theorem State.answer_drainKind (p : PortId) (f : Frame) (a : AnswerStatus) (l : Byte) (ws : List Word) : (s.answer p f a l ws).drainKind = s.drainKind := rfl
@[simp] theorem State.answer_drainCheckDue (p : PortId) (f : Frame) (a : AnswerStatus) (l : Byte) (ws : List Word) : (s.answer p f a l ws).drainCheckDue = s.drainCheckDue := rfl
@[simp] theorem State.answer_table (p : PortId) (f : Frame) (a : AnswerStatus) (l : Byte) (ws : List Word) : (s.answer p f a l ws).table = s.table := rfl
@[simp] theorem State.answer_generation (p : PortId) (f : Frame) (a : AnswerStatus) (l : Byte) (ws : List Word) : (s.answer p f a l ws).generation = s.generation := rfl
@[simp] theorem State.answer_lastServed (p : PortId) (f : Frame) (a : AnswerStatus) (l : Byte) (ws : List Word) : (s.answer p f a l ws).lastServed = s.lastServed := rfl
@[simp] theorem State.answer_leases (p : PortId) (f : Frame) (a : AnswerStatus) (l : Byte) (ws : List Word) : (s.answer p f a l ws).leases = s.leases := rfl
@[simp] theorem State.answer_relocations (p : PortId) (f : Frame) (a : AnswerStatus) (l : Byte) (ws : List Word) : (s.answer p f a l ws).relocations = s.relocations := rfl
@[simp] theorem State.answer_waiting (p : PortId) (f : Frame) (a : AnswerStatus) (l : Byte) (ws : List Word) : (s.answer p f a l ws).waiting = s.waiting := rfl
@[simp] theorem State.answer_evaluationsOwed (p : PortId) (f : Frame) (a : AnswerStatus) (l : Byte) (ws : List Word) : (s.answer p f a l ws).evaluationsOwed = s.evaluationsOwed := rfl
@[simp] theorem State.answer_ports (p : PortId) (f : Frame) (a : AnswerStatus) (l : Byte) (ws : List Word) : (s.answer p f a l ws).ports = s.ports.set p { s.ports[p] with outgoing := s.ports[p].outgoing ++ [answerFrame f.tag a f.kind l ws] } := rfl
@[simp] theorem State.answer_load (p : PortId) (f : Frame) (a : AnswerStatus) (l : Byte) (ws : List Word) : (s.answer p f a l ws).load = s.load := rfl
@[simp] theorem State.answer_save (p : PortId) (f : Frame) (a : AnswerStatus) (l : Byte) (ws : List Word) : (s.answer p f a l ws).save = s.save := rfl
@[simp] theorem State.answer_phase (p : PortId) (f : Frame) (a : AnswerStatus) (l : Byte) (ws : List Word) : (s.answer p f a l ws).phase = s.phase := rfl
@[simp] theorem State.answer_response (p : PortId) (f : Frame) (a : AnswerStatus) (l : Byte) (ws : List Word) : (s.answer p f a l ws).response = s.response := rfl
@[simp] theorem State.answer_busy (p : PortId) (f : Frame) (a : AnswerStatus) (l : Byte) (ws : List Word) : (s.answer p f a l ws).busy = s.busy := rfl
@[simp] theorem State.answer_lastResult (p : PortId) (f : Frame) (a : AnswerStatus) (l : Byte) (ws : List Word) : (s.answer p f a l ws).lastResult = s.lastResult := rfl
@[simp] theorem State.answer_attention (p : PortId) (f : Frame) (a : AnswerStatus) (l : Byte) (ws : List Word) : (s.answer p f a l ws).attention = s.attention := rfl
@[simp] theorem State.answer_params (p : PortId) (f : Frame) (a : AnswerStatus) (l : Byte) (ws : List Word) : (s.answer p f a l ws).params = s.params := rfl
@[simp] theorem State.answer_pending (p : PortId) (f : Frame) (a : AnswerStatus) (l : Byte) (ws : List Word) : (s.answer p f a l ws).pending = s.pending := rfl

/-! `State.refuse` -/

@[simp] theorem State.refuse_tableState (p : PortId) (f : Frame) (a : AnswerStatus) : (s.refuse p f a).tableState = s.tableState := rfl
@[simp] theorem State.refuse_badList (p : PortId) (f : Frame) (a : AnswerStatus) : (s.refuse p f a).badList = s.badList := rfl
@[simp] theorem State.refuse_drainKind (p : PortId) (f : Frame) (a : AnswerStatus) : (s.refuse p f a).drainKind = s.drainKind := rfl
@[simp] theorem State.refuse_drainCheckDue (p : PortId) (f : Frame) (a : AnswerStatus) : (s.refuse p f a).drainCheckDue = s.drainCheckDue := rfl
@[simp] theorem State.refuse_table (p : PortId) (f : Frame) (a : AnswerStatus) : (s.refuse p f a).table = s.table := rfl
@[simp] theorem State.refuse_generation (p : PortId) (f : Frame) (a : AnswerStatus) : (s.refuse p f a).generation = s.generation := rfl
@[simp] theorem State.refuse_lastServed (p : PortId) (f : Frame) (a : AnswerStatus) : (s.refuse p f a).lastServed = s.lastServed := rfl
@[simp] theorem State.refuse_leases (p : PortId) (f : Frame) (a : AnswerStatus) : (s.refuse p f a).leases = s.leases := rfl
@[simp] theorem State.refuse_relocations (p : PortId) (f : Frame) (a : AnswerStatus) : (s.refuse p f a).relocations = s.relocations := rfl
@[simp] theorem State.refuse_waiting (p : PortId) (f : Frame) (a : AnswerStatus) : (s.refuse p f a).waiting = s.waiting := rfl
@[simp] theorem State.refuse_evaluationsOwed (p : PortId) (f : Frame) (a : AnswerStatus) : (s.refuse p f a).evaluationsOwed = s.evaluationsOwed := rfl
@[simp] theorem State.refuse_ports (p : PortId) (f : Frame) (a : AnswerStatus) : (s.refuse p f a).ports = s.ports.set p { s.ports[p] with outgoing := s.ports[p].outgoing ++ [answerFrame f.tag a f.kind Config.noLease []] } := rfl
@[simp] theorem State.refuse_load (p : PortId) (f : Frame) (a : AnswerStatus) : (s.refuse p f a).load = s.load := rfl
@[simp] theorem State.refuse_save (p : PortId) (f : Frame) (a : AnswerStatus) : (s.refuse p f a).save = s.save := rfl
@[simp] theorem State.refuse_phase (p : PortId) (f : Frame) (a : AnswerStatus) : (s.refuse p f a).phase = s.phase := rfl
@[simp] theorem State.refuse_response (p : PortId) (f : Frame) (a : AnswerStatus) : (s.refuse p f a).response = s.response := rfl
@[simp] theorem State.refuse_busy (p : PortId) (f : Frame) (a : AnswerStatus) : (s.refuse p f a).busy = s.busy := rfl
@[simp] theorem State.refuse_lastResult (p : PortId) (f : Frame) (a : AnswerStatus) : (s.refuse p f a).lastResult = s.lastResult := rfl
@[simp] theorem State.refuse_attention (p : PortId) (f : Frame) (a : AnswerStatus) : (s.refuse p f a).attention = s.attention := rfl
@[simp] theorem State.refuse_params (p : PortId) (f : Frame) (a : AnswerStatus) : (s.refuse p f a).params = s.params := rfl
@[simp] theorem State.refuse_pending (p : PortId) (f : Frame) (a : AnswerStatus) : (s.refuse p f a).pending = s.pending := rfl

/-! `State.clearWork` -/

@[simp] theorem State.clearWork_tableState : (s.clearWork).tableState = s.tableState := rfl
@[simp] theorem State.clearWork_badList : (s.clearWork).badList = s.badList := rfl
@[simp] theorem State.clearWork_drainKind : (s.clearWork).drainKind = s.drainKind := rfl
@[simp] theorem State.clearWork_drainCheckDue : (s.clearWork).drainCheckDue = s.drainCheckDue := rfl
@[simp] theorem State.clearWork_table : (s.clearWork).table = s.table := rfl
@[simp] theorem State.clearWork_generation : (s.clearWork).generation = s.generation := rfl
@[simp] theorem State.clearWork_lastServed : (s.clearWork).lastServed = s.lastServed := rfl
@[simp] theorem State.clearWork_leases : (s.clearWork).leases = Vector.replicate 64 none := rfl
@[simp] theorem State.clearWork_relocations : (s.clearWork).relocations = Vector.replicate 8 none := rfl
@[simp] theorem State.clearWork_waiting : (s.clearWork).waiting = [] := rfl
@[simp] theorem State.clearWork_evaluationsOwed : (s.clearWork).evaluationsOwed = s.evaluationsOwed := rfl
@[simp] theorem State.clearWork_load : (s.clearWork).load = s.load := rfl
@[simp] theorem State.clearWork_save : (s.clearWork).save = s.save := rfl
@[simp] theorem State.clearWork_phase : (s.clearWork).phase = s.phase := rfl
@[simp] theorem State.clearWork_response : (s.clearWork).response = s.response := rfl
@[simp] theorem State.clearWork_busy : (s.clearWork).busy = s.busy := rfl
@[simp] theorem State.clearWork_lastResult : (s.clearWork).lastResult = s.lastResult := rfl
@[simp] theorem State.clearWork_attention : (s.clearWork).attention = s.attention := rfl
@[simp] theorem State.clearWork_params : (s.clearWork).params = s.params := rfl
@[simp] theorem State.clearWork_pending : (s.clearWork).pending = s.pending := rfl

/-! `State.raiseIf` -/

@[simp] theorem State.raiseIf_tableState (b : Bool) (x : Cause) : (s.raiseIf b x).tableState = s.tableState := by
  unfold State.raiseIf; split <;> rfl
@[simp] theorem State.raiseIf_badList (b : Bool) (x : Cause) : (s.raiseIf b x).badList = s.badList := by
  unfold State.raiseIf; split <;> rfl
@[simp] theorem State.raiseIf_drainKind (b : Bool) (x : Cause) : (s.raiseIf b x).drainKind = s.drainKind := by
  unfold State.raiseIf; split <;> rfl
@[simp] theorem State.raiseIf_drainCheckDue (b : Bool) (x : Cause) : (s.raiseIf b x).drainCheckDue = s.drainCheckDue := by
  unfold State.raiseIf; split <;> rfl
@[simp] theorem State.raiseIf_table (b : Bool) (x : Cause) : (s.raiseIf b x).table = s.table := by
  unfold State.raiseIf; split <;> rfl
@[simp] theorem State.raiseIf_generation (b : Bool) (x : Cause) : (s.raiseIf b x).generation = s.generation := by
  unfold State.raiseIf; split <;> rfl
@[simp] theorem State.raiseIf_lastServed (b : Bool) (x : Cause) : (s.raiseIf b x).lastServed = s.lastServed := by
  unfold State.raiseIf; split <;> rfl
@[simp] theorem State.raiseIf_leases (b : Bool) (x : Cause) : (s.raiseIf b x).leases = s.leases := by
  unfold State.raiseIf; split <;> rfl
@[simp] theorem State.raiseIf_relocations (b : Bool) (x : Cause) : (s.raiseIf b x).relocations = s.relocations := by
  unfold State.raiseIf; split <;> rfl
@[simp] theorem State.raiseIf_waiting (b : Bool) (x : Cause) : (s.raiseIf b x).waiting = s.waiting := by
  unfold State.raiseIf; split <;> rfl
@[simp] theorem State.raiseIf_evaluationsOwed (b : Bool) (x : Cause) : (s.raiseIf b x).evaluationsOwed = s.evaluationsOwed := by
  unfold State.raiseIf; split <;> rfl
@[simp] theorem State.raiseIf_ports (b : Bool) (x : Cause) : (s.raiseIf b x).ports = s.ports := by
  unfold State.raiseIf; split <;> rfl
@[simp] theorem State.raiseIf_load (b : Bool) (x : Cause) : (s.raiseIf b x).load = s.load := by
  unfold State.raiseIf; split <;> rfl
@[simp] theorem State.raiseIf_save (b : Bool) (x : Cause) : (s.raiseIf b x).save = s.save := by
  unfold State.raiseIf; split <;> rfl
@[simp] theorem State.raiseIf_phase (b : Bool) (x : Cause) : (s.raiseIf b x).phase = s.phase := by
  unfold State.raiseIf; split <;> rfl
@[simp] theorem State.raiseIf_response (b : Bool) (x : Cause) : (s.raiseIf b x).response = s.response := by
  unfold State.raiseIf; split <;> rfl
@[simp] theorem State.raiseIf_busy (b : Bool) (x : Cause) : (s.raiseIf b x).busy = s.busy := by
  unfold State.raiseIf; split <;> rfl
@[simp] theorem State.raiseIf_lastResult (b : Bool) (x : Cause) : (s.raiseIf b x).lastResult = s.lastResult := by
  unfold State.raiseIf; split <;> rfl
@[simp] theorem State.raiseIf_attention (b : Bool) (x : Cause) : (s.raiseIf b x).attention = if b then s.attention ||| x.bit else s.attention := by
  unfold State.raiseIf; split <;> rfl
@[simp] theorem State.raiseIf_params (b : Bool) (x : Cause) : (s.raiseIf b x).params = s.params := by
  unfold State.raiseIf; split <;> rfl
@[simp] theorem State.raiseIf_pending (b : Bool) (x : Cause) : (s.raiseIf b x).pending = s.pending := by
  unfold State.raiseIf; split <;> rfl

/-! `State.oweDrainCheck` -/

@[simp] theorem State.oweDrainCheck_tableState : (s.oweDrainCheck).tableState = s.tableState := by
  unfold State.oweDrainCheck; split <;> rfl
@[simp] theorem State.oweDrainCheck_badList : (s.oweDrainCheck).badList = s.badList := by
  unfold State.oweDrainCheck; split <;> rfl
@[simp] theorem State.oweDrainCheck_drainKind : (s.oweDrainCheck).drainKind = s.drainKind := by
  unfold State.oweDrainCheck; split <;> rfl
@[simp] theorem State.oweDrainCheck_drainCheckDue : (s.oweDrainCheck).drainCheckDue = if s.tableState = .draining then true else s.drainCheckDue := by
  unfold State.oweDrainCheck; split <;> rfl
@[simp] theorem State.oweDrainCheck_table : (s.oweDrainCheck).table = s.table := by
  unfold State.oweDrainCheck; split <;> rfl
@[simp] theorem State.oweDrainCheck_generation : (s.oweDrainCheck).generation = s.generation := by
  unfold State.oweDrainCheck; split <;> rfl
@[simp] theorem State.oweDrainCheck_lastServed : (s.oweDrainCheck).lastServed = s.lastServed := by
  unfold State.oweDrainCheck; split <;> rfl
@[simp] theorem State.oweDrainCheck_leases : (s.oweDrainCheck).leases = s.leases := by
  unfold State.oweDrainCheck; split <;> rfl
@[simp] theorem State.oweDrainCheck_relocations : (s.oweDrainCheck).relocations = s.relocations := by
  unfold State.oweDrainCheck; split <;> rfl
@[simp] theorem State.oweDrainCheck_waiting : (s.oweDrainCheck).waiting = s.waiting := by
  unfold State.oweDrainCheck; split <;> rfl
@[simp] theorem State.oweDrainCheck_evaluationsOwed : (s.oweDrainCheck).evaluationsOwed = s.evaluationsOwed := by
  unfold State.oweDrainCheck; split <;> rfl
@[simp] theorem State.oweDrainCheck_ports : (s.oweDrainCheck).ports = s.ports := by
  unfold State.oweDrainCheck; split <;> rfl
@[simp] theorem State.oweDrainCheck_load : (s.oweDrainCheck).load = s.load := by
  unfold State.oweDrainCheck; split <;> rfl
@[simp] theorem State.oweDrainCheck_save : (s.oweDrainCheck).save = s.save := by
  unfold State.oweDrainCheck; split <;> rfl
@[simp] theorem State.oweDrainCheck_phase : (s.oweDrainCheck).phase = s.phase := by
  unfold State.oweDrainCheck; split <;> rfl
@[simp] theorem State.oweDrainCheck_response : (s.oweDrainCheck).response = s.response := by
  unfold State.oweDrainCheck; split <;> rfl
@[simp] theorem State.oweDrainCheck_busy : (s.oweDrainCheck).busy = s.busy := by
  unfold State.oweDrainCheck; split <;> rfl
@[simp] theorem State.oweDrainCheck_lastResult : (s.oweDrainCheck).lastResult = s.lastResult := by
  unfold State.oweDrainCheck; split <;> rfl
@[simp] theorem State.oweDrainCheck_attention : (s.oweDrainCheck).attention = s.attention := by
  unfold State.oweDrainCheck; split <;> rfl
@[simp] theorem State.oweDrainCheck_params : (s.oweDrainCheck).params = s.params := by
  unfold State.oweDrainCheck; split <;> rfl
@[simp] theorem State.oweDrainCheck_pending : (s.oweDrainCheck).pending = s.pending := by
  unfold State.oweDrainCheck; split <;> rfl

/-! A change -/

@[simp] theorem State.begin_s : s.begin.s = s := rfl
@[simp] theorem State.begin_altered : s.begin.altered = false := rfl
@[simp] theorem Change.on_s (c : Change) (f : State → State) : (c.on f).s = f c.s := rfl
@[simp] theorem Change.on_altered (c : Change) (f : State → State) : (c.on f).altered = c.altered := rfl
@[simp] theorem Change.alter_altered (c : Change) (e : ShadowEntry) : (c.alter e).altered = true := rfl
@[simp] theorem Change.alter_s (c : Change) (e : ShadowEntry) : (c.alter e).s = c.s.hand e := rfl

@[simp] theorem Change.finish_tableState (c : Change) : c.finish.tableState = c.s.tableState := by
  unfold Change.finish; split <;> rfl
@[simp] theorem Change.finish_badList (c : Change) : c.finish.badList = c.s.badList := by
  unfold Change.finish; split <;> rfl
@[simp] theorem Change.finish_drainKind (c : Change) : c.finish.drainKind = c.s.drainKind := by
  unfold Change.finish; split <;> rfl
@[simp] theorem Change.finish_drainCheckDue (c : Change) : c.finish.drainCheckDue = c.s.drainCheckDue := by
  unfold Change.finish; split <;> rfl
@[simp] theorem Change.finish_table (c : Change) : c.finish.table = c.s.table := by
  unfold Change.finish; split <;> rfl
@[simp] theorem Change.finish_generation (c : Change) : c.finish.generation = if c.altered then c.s.generation + 1#32 else c.s.generation := by
  unfold Change.finish; split <;> rfl
@[simp] theorem Change.finish_lastServed (c : Change) : c.finish.lastServed = c.s.lastServed := by
  unfold Change.finish; split <;> rfl
@[simp] theorem Change.finish_leases (c : Change) : c.finish.leases = c.s.leases := by
  unfold Change.finish; split <;> rfl
@[simp] theorem Change.finish_relocations (c : Change) : c.finish.relocations = c.s.relocations := by
  unfold Change.finish; split <;> rfl
@[simp] theorem Change.finish_waiting (c : Change) : c.finish.waiting = c.s.waiting := by
  unfold Change.finish; split <;> rfl
@[simp] theorem Change.finish_evaluationsOwed (c : Change) : c.finish.evaluationsOwed = c.s.evaluationsOwed := by
  unfold Change.finish; split <;> rfl
@[simp] theorem Change.finish_ports (c : Change) : c.finish.ports = c.s.ports := by
  unfold Change.finish; split <;> rfl
@[simp] theorem Change.finish_load (c : Change) : c.finish.load = c.s.load := by
  unfold Change.finish; split <;> rfl
@[simp] theorem Change.finish_save (c : Change) : c.finish.save = c.s.save := by
  unfold Change.finish; split <;> rfl
@[simp] theorem Change.finish_phase (c : Change) : c.finish.phase = c.s.phase := by
  unfold Change.finish; split <;> rfl
@[simp] theorem Change.finish_response (c : Change) : c.finish.response = c.s.response := by
  unfold Change.finish; split <;> rfl
@[simp] theorem Change.finish_busy (c : Change) : c.finish.busy = c.s.busy := by
  unfold Change.finish; split <;> rfl
@[simp] theorem Change.finish_lastResult (c : Change) : c.finish.lastResult = c.s.lastResult := by
  unfold Change.finish; split <;> rfl
@[simp] theorem Change.finish_attention (c : Change) : c.finish.attention = c.s.attention := by
  unfold Change.finish; split <;> rfl
@[simp] theorem Change.finish_params (c : Change) : c.finish.params = c.s.params := by
  unfold Change.finish; split <;> rfl
@[simp] theorem Change.finish_pending (c : Change) : c.finish.pending = c.s.pending := by
  unfold Change.finish; split <;> rfl

end Sys2Proof.Machine
end

