-- ==== Sys2Proof/Laws/Records.lean ====
section
/-! SUPPORT. Reading after writing: the ports, leases, relocations, dies and records that an update leaves, and what the steps of a change
do to the records. -/

namespace Sys2Proof.Machine

variable (s : State) (c : Change)

/-! ### Ports -/

theorem State.mapPort_get (p q : PortId) (f : Port → Port) :
    (s.mapPort p f).ports[q] = if q = p then f s.ports[p] else s.ports[q] := by
  simp only [State.mapPort_ports, Fin.getElem_fin, Vector.getElem_set]
  by_cases h : q = p
  · subst h; simp
  · have h' : ¬ (p : Nat) = q := fun e => h (Fin.ext e.symm)
    simp [h, h']

@[simp] theorem State.mapPort_self (p : PortId) (f : Port → Port) : (s.mapPort p f).ports[p] = f s.ports[p] := by
  rw [State.mapPort_get]; simp

theorem State.mapPort_other {p q : PortId} (h : q ≠ p) (f : Port → Port) : (s.mapPort p f).ports[q] = s.ports[q] := by
  rw [State.mapPort_get]; simp [h]

/-! ### Leases and relocations -/

theorem State.lease?_eq (id : Nat) : s.lease? id = if h : id < 64 then s.leases[id] else none := by
  unfold State.lease?
  by_cases h : id < 64 <;> simp [h]

theorem State.setLease_lease? (id i : Nat) (o : Option Lease) :
    (s.setLease id o).lease? i = if i = id then (if id < 64 then o else none) else s.lease? i := by
  unfold State.lease?
  simp only [State.setLease_leases]
  by_cases h : i = id
  · subst h
    by_cases g : i < 64 <;> simp [g]
  · have h' : ¬ id = i := fun e => h e.symm
    by_cases g : i < 64 <;> simp [g, h, h']

theorem State.setRelocation_relocation? (d e : Nat) (o : Option Relocation) :
    (s.setRelocation d o).relocation? e = if e = d then (if d < 8 then o else none) else s.relocation? e := by
  unfold State.relocation?
  simp only [State.setRelocation_relocations]
  by_cases h : e = d
  · subst h
    by_cases g : e < 8 <;> simp [g]
  · have h' : ¬ d = e := fun x => h x.symm
    by_cases g : e < 8 <;> simp [g, h, h']

/-! ### Dies and records -/

theorem State.mapDie_die? (d e : Nat) (f : Die → Die) :
    (s.mapDie d f).die? e = if e = d then (s.die? d).map f else s.die? e := by
  unfold State.die?
  simp only [State.mapDie_table]
  cases s.table with
  | none => simp
  | some t =>
    by_cases h : e = d
    · subst h; simp
    · have h' : ¬ d = e := fun x => h x.symm
      simp [h, h']

theorem State.mapDie_phys? (d e b : Nat) (f : Die → Die) :
    (s.mapDie d f).phys? e b = if e = d then (s.die? d).bind (fun x => (f x).blocks[b]?) else s.phys? e b := by
  unfold State.phys?
  rw [State.mapDie_die?]
  by_cases h : e = d <;> simp [h, Option.bind_map]

@[simp] theorem State.mapDie_logical? (d l : Nat) (f : Die → Die) : (s.mapDie d f).logical? l = s.logical? l := by
  unfold State.logical?
  simp only [State.mapDie_table]
  cases s.table <;> simp

@[simp] theorem State.mapDie_geometry (d : Nat) (f : Die → Die) : (s.mapDie d f).geometry = s.geometry := by
  unfold State.geometry
  simp only [State.mapDie_table]
  cases s.table <;> simp

@[simp] theorem State.mapDie_home (d l : Nat) (f : Die → Die) : (s.mapDie d f).home l = s.home l := by
  simp [State.home]

/-- An update that keeps the table keeps every record. -/
theorem State.records_congr {s t : State} (h : t.table = s.table) :
    (∀ d, t.die? d = s.die? d) ∧ (∀ d b, t.phys? d b = s.phys? d b) ∧ (∀ l, t.logical? l = s.logical? l)
      ∧ t.geometry = s.geometry ∧ ∀ l, t.home l = s.home l := by
  have hd : ∀ d, t.die? d = s.die? d := fun d => by simp [State.die?, h]
  have hg : t.geometry = s.geometry := by simp [State.geometry, h]
  exact ⟨hd, fun d b => by simp [State.phys?, hd], fun l => by simp [State.logical?, h], hg, fun l => by simp [State.home, hg]⟩

/-! ### Handing a record (R24, R168) -/

/-- R24: handing a record changes the save and the attention set, and nothing else. -/
theorem State.hand_eq (e : ShadowEntry) : s.hand e = { s with save := (s.hand e).save, attention := (s.hand e).attention } := by
  unfold State.hand State.shadowFull State.raise
  split
  · rfl
  · split
    · rfl
    · split
      · rfl
      · split <;> rfl

@[simp] theorem State.hand_table (e : ShadowEntry) : (s.hand e).table = s.table := by rw [State.hand_eq]

@[simp] theorem State.hand_ports (e : ShadowEntry) : (s.hand e).ports = s.ports := by rw [State.hand_eq]

@[simp] theorem State.hand_leases (e : ShadowEntry) : (s.hand e).leases = s.leases := by rw [State.hand_eq]

@[simp] theorem State.hand_relocations (e : ShadowEntry) : (s.hand e).relocations = s.relocations := by rw [State.hand_eq]

@[simp] theorem State.hand_waiting (e : ShadowEntry) : (s.hand e).waiting = s.waiting := by rw [State.hand_eq]

@[simp] theorem State.hand_evaluationsOwed (e : ShadowEntry) : (s.hand e).evaluationsOwed = s.evaluationsOwed := by
  rw [State.hand_eq]

@[simp] theorem State.hand_generation (e : ShadowEntry) : (s.hand e).generation = s.generation := by rw [State.hand_eq]

@[simp] theorem State.hand_params (e : ShadowEntry) : (s.hand e).params = s.params := by rw [State.hand_eq]

@[simp] theorem State.hand_tableState (e : ShadowEntry) : (s.hand e).tableState = s.tableState := by rw [State.hand_eq]

/-- R168: with no save running, handing does nothing. -/
theorem State.hand_idle (e : ShadowEntry) (h : s.save.status ≠ .running) : s.hand e = s := by
  unfold State.hand; simp [h]

/-! ### Writing a record in a change (R8, R21, R22) -/

/-- The logical records after a write of the record of `l`. -/
theorem Change.writeLogical_logical? (l k : Nat) (r : LogicalRecord) :
    (c.writeLogical l r).s.logical? k = if k = l then (c.s.logical? l).map (fun _ => r) else c.s.logical? k := by
  unfold Change.writeLogical
  cases h : c.s.logical? l with
  | none => by_cases e : k = l <;> simp [e, h]
  | some old =>
    have key : ∀ t : State, t.table = c.s.table →
        (t.mapTable fun x => { x with logical := x.logical.set l r }).logical? k
          = if k = l then some r else c.s.logical? k := by
      intro t ht
      unfold State.logical? at h ⊢
      simp only [State.mapTable_table, ht]
      cases hc : c.s.table with
      | none => simp [hc] at h
      | some x =>
        simp only [hc, Option.bind_some] at h
        by_cases e : k = l
        · subst e
          have hl : k < x.logical.length := by
            rcases Nat.lt_or_ge k x.logical.length with g | g
            · exact g
            · simp [List.getElem?_eq_none g] at h
          simp [hl]
        · have e' : ¬ l = k := fun z => e z.symm
          simp [e, e']
    simp only [Option.map_some]
    split
    · exact key c.s rfl
    · exact key _ (by simp)

/-- The physical records are as they were after a write of a logical record. -/
theorem Change.writeLogical_die? (l d : Nat) (r : LogicalRecord) : (c.writeLogical l r).s.die? d = c.s.die? d := by
  unfold Change.writeLogical
  cases h : c.s.logical? l with
  | none => rfl
  | some old =>
    have key : ∀ t : State, t.table = c.s.table →
        (t.mapTable fun x => { x with logical := x.logical.set l r }).die? d = c.s.die? d := by
      intro t ht
      unfold State.die?
      simp only [State.mapTable_table, ht]
      cases c.s.table <;> simp
    simp only
    split
    · exact key c.s rfl
    · exact key _ (by simp)

/-- A write of the record of block `b` of die `d` rewrites that die with the new record and its histograms. -/
theorem Change.writePhys_die? (d b e : Nat) (r : PhysRecord) :
    (c.writePhys d b r).s.die? e
      = match c.s.phys? d b with
        | none => c.s.die? e
        | some old => if e = d then (c.s.die? d).map (fun x => x.writeBlock c.s.geometry.classWidth b old r) else c.s.die? e := by
  unfold Change.writePhys
  cases h : c.s.phys? d b with
  | none => rfl
  | some old =>
    have key : ∀ t : State, t.table = c.s.table →
        (t.mapDie d fun x => x.writeBlock t.geometry.classWidth b old r).die? e
          = if e = d then (c.s.die? d).map (fun x => x.writeBlock c.s.geometry.classWidth b old r) else c.s.die? e := by
      intro t ht
      have hr := State.records_congr ht
      rw [State.mapDie_die?, hr.1, hr.1, hr.2.2.2.1]
    simp only
    split
    · exact key c.s rfl
    · exact key _ (by simp)

/-- The physical records after a write of the record of block `b` of die `d`. -/
theorem Change.writePhys_phys? (d b e k : Nat) (r : PhysRecord) :
    (c.writePhys d b r).s.phys? e k = if e = d ∧ k = b then (c.s.phys? d b).map (fun _ => r) else c.s.phys? e k := by
  have hd := Change.writePhys_die? c d b e r
  unfold State.phys? at hd ⊢
  rw [hd]
  cases h : c.s.die? d with
  | none =>
    simp only [Option.bind_none]
    by_cases g : e = d ∧ k = b
    · rw [g.1, h]; simp [g]
    · simp [g]
  | some x =>
    simp only [Option.bind_some]
    cases hb : x.blocks[b]? with
    | none =>
      by_cases g : e = d ∧ k = b
      · rw [g.1, g.2, h]; simp [hb]
      · simp [g]
    | some old =>
      have hl : b < x.blocks.length := (List.getElem?_eq_some_iff.1 hb).1
      by_cases he : e = d
      · subst he
        by_cases hk : k = b
        · subst hk; simp [Die.writeBlock, hl]
        · have hk' : ¬ b = k := fun z => hk z.symm
          simp [Die.writeBlock, hk, hk', h]
      · simp [he]

/-- The logical records are as they were after a write of a physical record. -/
theorem Change.writePhys_logical? (d b l : Nat) (r : PhysRecord) : (c.writePhys d b r).s.logical? l = c.s.logical? l := by
  unfold Change.writePhys
  cases h : c.s.phys? d b with
  | none => rfl
  | some old =>
    simp only
    split
    · simp
    · simp [State.logical?, Change.on, Change.alter]
      cases c.s.table <;> simp

/-! ### Retirement (R36) -/

/-- R36: the die a retirement leaves, before its health is computed. -/
def Die.afterRetire (x : Die) (b : Nat) : Die :=
  { x with
    spares := x.spares.filter (· != b)
    eraseQueue := x.eraseQueue.filter (· != b)
    retired := x.retired + 1
    reserve := x.reserve - 1 }

/-- R39: what computing the health of die `d` again leaves of the dies. -/
theorem State.recomputeHealth_die? (d e : Nat) :
    (s.recomputeHealth d).die? e
      = if e = d then (s.die? d).map (fun x => { x with health := healthOf s.params.spareWarn x.reserve }) else s.die? e := by
  unfold State.recomputeHealth
  cases h : s.die? d with
  | none => by_cases g : e = d <;> simp [g, h]
  | some x =>
    have hr := State.records_congr (s := s.mapDie d fun y => { y with health := healthOf s.params.spareWarn x.reserve })
      (t := (s.mapDie d fun y => { y with health := healthOf s.params.spareWarn x.reserve }).raiseIf
        (healthOf s.params.spareWarn x.reserve != x.health) .dieHealth) (by simp)
    simp only
    rw [hr.1, State.mapDie_die?, h]
    by_cases g : e = d <;> simp [g]

end Sys2Proof.Machine
end

