-- ==== Sys2Proof/Certificates/Slice0/Obligations.lean ====
section
/-! DEFINITION. The statements for the provers. A statement about a request begins where the arbiter's choice is its port and the head
frame makes it (`State.Heads`); one about a maintenance command begins where its frame is received (`State.Ready`). The next state is
written out as the state before it with the fields that change, so that each equation is also the frame. -/

section

open Sys2Proof Sys2Proof.Machine

/-! ### Steps and the order of commands -/

/-- A step runs the command at the front of the queue on the state with the queue's rest. -/
def Obligations.StepRunsTheFrontCommand : Prop :=
  ∀ (c : Instr) (rest : List Instr) (s : State), step { s with pending := c :: rest } = exec c { s with pending := rest }

/-- The model's choice (log entry 1): on an empty queue a step is one millisecond. R52, R109: every timer falls by 1; R53, R110: a lease
whose remaining time reaches 0 ends, and a port with an order whose timer reaches 0 is lost. -/
def Obligations.EmptyQueueStepIsAMillisecond : Prop :=
  ∀ s : State, s.pending = [] →
    ((∀ (id : Nat) (l : Lease), s.lease? id = some l → l.expiry ≠ some 0 ∧ l.expiry ≠ some 1) →
      (∀ (p : PortId) (o : Order), o ∈ s.ports[p].orders → 2 ≤ o.timer) →
      step s = .next { s with
        leases := s.leases.map fun e => e.map fun l => { l with expiry := l.expiry.map fun n => n - 1 }
        ports := s.ports.map fun x => { x with orders := x.orders.map fun o => { o with timer := o.timer - 1 } } })
    ∧ (∀ (id : Nat) (l : Lease), s.lease? id = some l → l.expiry = some 1 → ∃ t, step s = .next t ∧ t.lease? id = none)
    ∧ (∀ (p : PortId) (o : Order), s.ports[p].link = .up → o ∈ s.ports[p].orders → o.timer = 1 →
        ∃ t, step s = .next t ∧ t.ports[p].link = .down ∧ t.ports[p].lossCause = .orderTimeout ∧ t.ports[p].orders = [])

/-- Every command a row of the table can carry runs in every state, and leaves the waiting commands alone. -/
def Obligations.EveryCommandRuns : Prop :=
  ∀ (c : Instr) (s : State), c.wellFormed = true → ∃ t, exec c s = .next t ∧ t.pending = s.pending

/-- R130, R132: a request acts only where the arbiter's choice is its port. R173: a maintenance command acts only in phase COMMAND. R173,
R53, R110, R121: a turnaround ends only where one is under way, and an event acts only on what it names. That a command out of its turn
changes nothing is the model's choice (log entry 3). -/
def Obligations.CommandOutOfTurnChangesNothing : Prop :=
  (∀ (p : PortId) (s : State), s.arbiterChoice ≠ some p →
      exec (.setGroup p) s = .next s ∧ exec (.openRead p) s = .next s ∧ exec (.openWrite p) s = .next s
      ∧ exec (.commit p) s = .next s ∧ exec (.release p) s = .next s ∧ exec (.renew p) s = .next s
      ∧ exec (.discard p) s = .next s ∧ exec (.reportWeak p) s = .next s ∧ exec (.orderDone p) s = .next s
      ∧ exec (.unknownRequest p) s = .next s)
  ∧ (∀ (c : Instr) (frame : Byte × List Byte) (s : State), c.wellFormed = true → commandFrame c = some frame →
      s.phase ≠ .command → exec c s = .next s)
  ∧ (∀ s : State, s.phase ≠ .turnaround → exec .turnaroundEnd s = .next s)
  ∧ (∀ (p : PortId) (s : State), s.ports[p].link ≠ .up → exec (.linkLoss p) s = .next s)
  ∧ (∀ (id : Fin 64) (s : State), s.lease? id = none → exec (.leaseExpiry id) s = .next s)
  ∧ (∀ (p : PortId) (tag : Byte) (s : State), s.ports[p].hasOrder tag = false → exec (.orderTimeout p tag) s = .next s)
  ∧ (∀ s : State, s.busy.code ≠ 0x01#8 → exec .formatCompletion s = .next s)
  ∧ ∀ s : State, s.load.phase ≠ .checking → exec .loadCompletion s = .next s

/-- R130: the arbiter takes from the first eligible port after the last port served, in the cycle 0, 1, 2, 3, and from port 0 on when none
was; it takes from none only when none is eligible. R130, R131: a port is eligible when it is UP, has a head request, and its outgoing
queue has room for the greatest answer that request can produce. -/
def Obligations.ArbiterTakesTheFirstEligiblePort : Prop :=
  ∀ s : State,
    (∀ p : PortId, s.ports[p].eligible = true ↔
      s.ports[p].link = .up ∧ ∃ f rest, s.ports[p].fifo = f :: rest ∧
        s.ports[p].outgoing.length
          + (if f.request = some .openRead ∧ 1 ≤ f.byte2.toNat ∧ f.byte2.toNat ≤ 16 then
              (f.byte2.toNat + (max s.ports[p].groupSize 1 - 1)) / max s.ports[p].groupSize 1
            else 1) ≤ 32)
    ∧ (s.arbiterChoice = none ↔ ∀ p : PortId, s.ports[p].eligible = false)
    ∧ (∀ p last : PortId, s.lastServed = some last → (s.arbiterChoice = some p ↔
        s.ports[p].eligible = true ∧ ∀ q : PortId, (q - last - 1).val < (p - last - 1).val → s.ports[q].eligible = false))
    ∧ (∀ p : PortId, s.lastServed = none → (s.arbiterChoice = some p ↔
        s.ports[p].eligible = true ∧ ∀ q : PortId, q.val < p.val → s.ports[q].eligible = false))

/-! ### Maintenance transactions (chapter 9, section 10.2) -/

/-- R174, R189: a damaged frame is answered BAD_FRAME, and a frame of unknown opcode or unsuitable length BAD_ARG, busy or not; a known
command with a code that selects none of its forms is answered BAD_ARG by its own rule, while the part is not busy; that this holds in every
table state is the model's reading (log entry 9). None has any other effect. The commands of a frame that is another row's are refused by name: a frame that passes its check is no BAD_FRAME, and a frame of
a known command in a listed form is no UNKNOWN_COMMAND (log entry 5). R173: select asserted starts a transaction in phase COMMAND; the
last turnaround byte begins the response; select released ends the transaction, and what was left of the response is lost. Nothing else
changes. -/
def Obligations.TransactionsAndRefusedFrames : Prop :=
  ((∀ (opcode : Byte) (payload : List Byte) (check : Byte) (s : State), s.phase = .command →
      commandPasses opcode payload check = false → exec (.badFrame opcode payload check) s = .next (s.responded .badFrame []))
  ∧ (∀ (opcode : Byte) (payload : List Byte) (s : State), s.phase = .command → suits opcode payload.length = false →
      exec (.unknownCommand opcode payload) s = .next (s.responded .badArg []))
  ∧ (∀ (opcode : Byte) (payload : List Byte) (s : State), s.Ready → formListed opcode payload = false →
      exec (.unknownCommand opcode payload) s = .next (s.responded .badArg [])))
  ∧ ((∀ (opcode : Byte) (payload : List Byte) (check : Byte) (s : State), commandPasses opcode payload check = true →
        exec (.badFrame opcode payload check) s = .refused .otherRow)
    ∧ ∀ (opcode : Byte) (payload : List Byte) (s : State), suits opcode payload.length = true → formListed opcode payload = true →
        exec (.unknownCommand opcode payload) s = .refused .otherRow)
  ∧ (∀ s : State,
      exec .spiSelectAssert s = .next { s with phase := .command, response := [] }
      ∧ exec .spiSelectRelease s = .next { s with phase := .idle, response := [] }
      ∧ (s.phase = .turnaround → exec .turnaroundEnd s = .next { s with phase := .response }))

/-- R176: while the part is busy, every command of the table but IDENTIFY (01), GET_STATUS (02) and ACK_ATTN (03) is answered BUSY with the
busy operation and the started flag clear, and does not act. -/
def Obligations.BusyPartAnswersBusy : Prop :=
  ∀ (c : Instr) (opcode : Byte) (payload : List Byte) (s : State), s.phase = .command → s.busy ≠ .none → c.wellFormed = true →
    commandFrame c = some (opcode, payload) → suits opcode payload.length = true →
    opcode ≠ 0x01#8 → opcode ≠ 0x02#8 → opcode ≠ 0x03#8 →
    exec c s = .next (s.responded .busy [s.busy.code, 0x00#8])

/-- Section 10.2: reading the frame of a command, with its check byte, gives the command back: every command of the table, every operand. -/
def Obligations.CommandOfItsFrame : Prop :=
  ∀ (c : Instr) (opcode : Byte) (payload : List Byte), c.wellFormed = true → commandFrame c = some (opcode, payload) →
    commandOfFrame opcode payload (checkByte (frameBody opcode payload)) = c

/-- R177: IDENTIFY is admitted in every state, busy or not, changes nothing and answers the fixed values: identifier 53420640, revision 1,
4 ports, 8 dies, 1024 blocks, 8192 logical blocks, 64 leases, image version 1, chunk 64. -/
def Obligations.IdentifyAnswersTheFixedValues : Prop :=
  ∀ s : State, s.phase = .command →
    exec .identify s = .next (s.responded .ok
      [0x40#8, 0x06#8, 0x42#8, 0x53#8, 1#8, 4#8, 8#8, 0x00#8, 0x04#8, 0x00#8, 0x20#8, 64#8, 1#8, 64#8])

/-- R183: GET_STATUS is admitted in every state, busy or not, changes nothing and answers the items of 10.2.1 in order. The worst health
is EXHAUSTED when any die is, otherwise LOW when any is, otherwise GOOD, and NONE (FF) without a table; the summary is ALARM when a
die is not GOOD. -/
def Obligations.GetStatusAnswersTheWholePart : Prop :=
  ∀ s : State, s.phase = .command → ∃ worst summary : Byte,
    exec .getStatus s = .next (s.responded .ok
      ([s.tableState.code, s.drainKind.code, s.busy.code] ++ s.lastResult.codes ++ le32 s.lastResult.first
        ++ le16 s.lastResult.second ++ [0#3 ++ s.attention, 0#3 ++ s.params.attnMask, worst, summary] ++ le32 s.generation
        ++ [byte s.openLeases, s.save.status.code] ++ le16n s.save.position ++ le16n s.save.size
        ++ [byte s.save.shadow.length, s.load.phase.code] ++ le16n s.load.received
        ++ (match s.load.fault with | none => [0x00#8, 0x00#8, 0x00#8] | some (fault, i) => fault.code :: le16n i)))
    ∧ (s.table = none → worst = 0xFF#8 ∧ summary = 0x00#8)
    ∧ ∀ t : Table, s.table = some t →
        (worst = 0x02#8 ↔ ∃ x ∈ t.dies, x.health = .exhausted)
        ∧ (worst = 0x01#8 ↔ (∃ x ∈ t.dies, x.health = .low) ∧ ∀ x ∈ t.dies, x.health ≠ .exhausted)
        ∧ (worst = 0x00#8 ↔ ∀ x ∈ t.dies, x.health = .good)
        ∧ (summary = 0x01#8 ↔ ∃ x ∈ t.dies, x.health ≠ .good) ∧ (summary = 0x00#8 ↔ ∀ x ∈ t.dies, x.health = .good)

/-- R181: ACK_ATTN, busy or not, removes the named causes and answers the set after it; a set naming anything but the five causes is
answered BAD_ARG and clears nothing. R182: the line is asserted exactly while some cause is pending and in ATTN_MASK. -/
def Obligations.AckAttnClearsTheNamedCauses : Prop :=
  (∀ (causes : Byte) (s : State), s.phase = .command →
      exec (.ackAttn causes) s
        = .next (if causes.toNat < 32 then
            ({ s with attention := s.attention &&& ~~~causes.setWidth 5 }).responded .ok
              [(s.attention &&& ~~~causes.setWidth 5).setWidth 8]
          else s.responded .badArg []))
  ∧ ∀ s : State, s.attnLine = true ↔ ∃ c : Cause, c.isIn s.attention = true ∧ c.isIn s.params.attnMask = true

/-- R178: SET_PARAM by parameter code, index and value, for the parameters but SPARE_WARN (stated below): the value is stored and echoed
with code and index. A code that names no parameter, an index beyond the parameter's, and a value outside its range are answered
BAD_ARG; DIE_PORT outside BLANK and OFFLINE is answered WRONG_STATE. R39, R178: SET_PARAM of SPARE_WARN stores the value and computes
the health of every die of the table again from its reserve, raising DIE_HEALTH when one differs from before; without a table it only
stores the value; above 64 it is answered BAD_ARG. R179: GET_PARAM answers code, index and the value held, in every table state, and
changes nothing; a code or index that names no parameter is answered BAD_ARG. That both echo the index as carried for a parameter that has
none is the model's reading (log entry 10). -/
def Obligations.ParametersAreSetAndRead : Prop :=
  (∀ (index : Byte) (v : Word) (s : State), s.Ready →
    let n := v.toNat
    let ok (code : Byte) (x : Params) : Host.Outcome State Fault Refusal :=
      .next (({ s with params := x }).responded .ok (code :: index :: le32 v))
    let badArg : Host.Outcome State Fault Refusal := .next (s.responded .badArg [])
    (exec (.setParam 0x01#8 index v) s = if n ≤ 1 then ok 0x01#8 { s.params with levelEnable := n == 1 } else badArg)
    ∧ (exec (.setParam 0x02#8 index v) s = if 1 ≤ n ∧ n ≤ 16 then ok 0x02#8 { s.params with levelGap := n } else badArg)
    ∧ (exec (.setParam 0x04#8 index v) s = if n ≤ 65535 then ok 0x04#8 { s.params with leaseLimit := n } else badArg)
    ∧ (exec (.setParam 0x05#8 index v) s = if 1 ≤ n ∧ n ≤ 65535 then ok 0x05#8 { s.params with orderLimit := n } else badArg)
    ∧ (exec (.setParam 0x06#8 index v) s
        = if h : index.toNat < 4 then
            if 1 ≤ n ∧ n ≤ 64 then ok 0x06#8 { s.params with leaseQuota := s.params.leaseQuota.set index.toNat n } else badArg
          else badArg)
    ∧ (exec (.setParam 0x07#8 index v) s
        = if h : index.toNat < 8 ∧ n < 4 then
            if s.tableState = .blank ∨ s.tableState = .offline then
              ok 0x07#8 { s.params with diePort := s.params.diePort.set index.toNat ⟨n, h.2⟩ }
            else .next (s.responded .wrongState [])
          else badArg)
    ∧ (exec (.setParam 0x08#8 index v) s
        = if n < 32 then ok 0x08#8 { s.params with attnMask := v.setWidth 5 } else badArg)
    ∧ ∀ code : Byte, code = 0#8 ∨ 9 ≤ code.toNat → exec (.setParam code index v) s = badArg)
  ∧ (∀ (index : Byte) (v : Word) (s : State), s.Ready →
      (65 ≤ v.toNat → exec (.setParam 0x03#8 index v) s = .next (s.responded .badArg []))
      ∧ (v.toNat ≤ 64 → s.table = none →
          exec (.setParam 0x03#8 index v) s
            = .next (({ s with params := { s.params with spareWarn := v.toNat } }).responded .ok (0x03#8 :: index :: le32 v)))
      ∧ ∀ t : Table, v.toNat ≤ 64 → s.table = some t → t.dies.length = t.geometry.dieCount →
          exec (.setParam 0x03#8 index v) s
            = .next (State.responded { s with
                params := { s.params with spareWarn := v.toNat }
                table := some { t with dies := t.dies.map fun x => { x with health := healthOf v.toNat x.reserve } }
                attention := if t.dies.any fun x => healthOf v.toNat x.reserve != x.health then s.attention ||| 0b00001#5
                  else s.attention } .ok (0x03#8 :: index :: le32 v)))
  ∧ (∀ (index : Byte) (s : State), s.Ready →
      let ok (code : Byte) (n : Nat) : Host.Outcome State Fault Refusal := .next (s.responded .ok (code :: index :: le32n n))
      let badArg : Host.Outcome State Fault Refusal := .next (s.responded .badArg [])
      exec (.getParam 0x01#8 index) s = ok 0x01#8 s.params.levelEnable.toNat
      ∧ exec (.getParam 0x02#8 index) s = ok 0x02#8 s.params.levelGap
      ∧ exec (.getParam 0x03#8 index) s = ok 0x03#8 s.params.spareWarn
      ∧ exec (.getParam 0x04#8 index) s = ok 0x04#8 s.params.leaseLimit
      ∧ exec (.getParam 0x05#8 index) s = ok 0x05#8 s.params.orderLimit
      ∧ (exec (.getParam 0x06#8 index) s = if h : index.toNat < 4 then ok 0x06#8 s.params.leaseQuota[index.toNat] else badArg)
      ∧ (exec (.getParam 0x07#8 index) s = if h : index.toNat < 8 then ok 0x07#8 s.params.diePort[index.toNat].val else badArg)
      ∧ exec (.getParam 0x08#8 index) s = ok 0x08#8 s.params.attnMask.toNat
      ∧ ∀ code : Byte, code = 0#8 ∨ 9 ≤ code.toNat → exec (.getParam code index) s = badArg)

/-! ### Inquiries (R134, R184 to R187) -/

/-- R184, 10.2.2: TRANSLATE is answered WRONG_STATE without a table and BAD_ARG when L is LOGICAL_COUNT or more; otherwise it reports L's
record, its current block when MAPPED, whether it stands in the rescue queue, its write lease and its relocation, each part 0 where it is
absent. It changes nothing. -/
def Obligations.TranslateReportsTheRecord : Prop :=
  ∀ (l : Half) (s : State), s.Ready →
    (s.tableState.hasTable = false → exec (.translate l) s = .next (s.responded .wrongState []))
    ∧ (∀ t : Table, s.tableState.hasTable = true → s.table = some t → t.logical.length = t.geometry.logicalCount →
        t.geometry.logicalCount ≤ l.toNat → exec (.translate l) s = .next (s.responded .badArg []))
    ∧ ∀ r : LogicalRecord, s.tableState.hasTable = true → s.logical? l.toNat = some r →
        ∃ block lease relocation : List Byte,
          exec (.translate l) s = .next (s.responded .ok
            ([flag r.block.isSome] ++ le16 r.version ++ [if r.risk = .unreadable then 0x01#8 else 0x00#8] ++ block
              ++ [flag ((s.rescue (s.home l.toNat)).contains l.toNat)] ++ lease ++ relocation))
          ∧ (r.block = none → block = List.replicate 10 0x00#8)
          ∧ (∀ (b : Nat) (x : PhysRecord), r.block = some b → s.phys? (s.home l.toNat) b = some x →
              block = [byte (s.home l.toNat)] ++ le16n b ++ le32n x.eraseCount
                ++ [byte (min (x.eraseCount / s.geometry.classWidth) 62), byte x.readers,
                  if x.weak = some .host then 0x02#8 else if x.weak = some .port then 0x01#8 else 0x00#8])
          ∧ (r.writeLease = none → lease = List.replicate 7 0x00#8)
          ∧ (∀ (id : Nat) (x : Lease) (b attempt : Nat), r.writeLease = some id → s.lease? id = some x →
              x.body = .write l.toNat b attempt →
              lease = [0x01#8, byte id, byte x.port.val, byte (s.home l.toNat)] ++ le16n b ++ [byte attempt])
          ∧ (r.relocating = false → relocation = List.replicate 8 0x00#8)
          ∧ ∀ x : Relocation, r.relocating = true → s.relocation? (s.home l.toNat) = some x → x.active = true →
              relocation = [0x01#8, if x.kind = .rescue then 0x01#8 else 0x00#8, if x.state = .waitSlot then 0x00#8 else 0x01#8]
                ++ le16n x.source ++ le16n x.destination ++ [byte x.attempt]

/-- R185, 10.2.3: READ_BLOCK is answered WRONG_STATE without a table and BAD_ARG for a die or block the table has not; otherwise it
reports the block's state and the fields that state holds, the others 0. It changes nothing. The fields: state, erase count, class, owner,
readers, weak mark, retire cause, in the erase queue, destination of what, lease id, port of the ERASE order. -/
def Obligations.ReadBlockReportsTheState : Prop :=
  ∀ (die : Byte) (block : Half) (s : State), s.Ready →
    let d := die.toNat
    let b := block.toNat
    let wear (x : PhysRecord) : List Byte := le32n x.eraseCount ++ [byte (min (x.eraseCount / s.geometry.classWidth) 62)]
    (s.tableState.hasTable = false → exec (.readBlock die block) s = .next (s.responded .wrongState []))
    ∧ (s.tableState.hasTable = true → s.phys? d b = none → exec (.readBlock die block) s = .next (s.responded .badArg []))
    ∧ ∀ x : PhysRecord, s.tableState.hasTable = true → s.phys? d b = some x →
        ∃ payload : List Byte, exec (.readBlock die block) s = .next (s.responded .ok payload)
        ∧ (x.state = .fixed → payload = List.replicate 15 0x00#8)
        ∧ (x.state = .spare → payload = [0x01#8] ++ wear x ++ List.replicate 9 0x00#8)
        ∧ (x.state = .allocated →
            (∀ (id : Nat) (y : Lease) (l attempt : Nat), s.lease? id = some y → y.body = .write l b attempt → s.home l = d →
                (∀ i < id, ∀ (z : Lease) (k a : Nat), s.lease? i = some z → z.body = .write k b a → s.home k ≠ d) →
                payload = [0x02#8] ++ wear x ++ List.replicate 6 0x00#8 ++ [0x01#8, byte id, 0x00#8])
            ∧ ((∀ (id : Nat) (y : Lease) (l attempt : Nat), s.lease? id = some y → y.body = .write l b attempt → s.home l ≠ d) →
                payload = [0x02#8] ++ wear x ++ List.replicate 6 0x00#8
                  ++ [if (s.relocation? d).any (fun r => r.destination == b) then 0x02#8 else 0x00#8, 0x00#8, 0x00#8]))
        ∧ (∀ l : Nat, x.state = .mapped → x.owner = some l →
            payload = [0x03#8] ++ wear x ++ le16n l ++ [byte x.readers, 0#6 ++ weakCode x.weak] ++ List.replicate 5 0x00#8)
        ∧ (x.state = .stale →
            payload = [0x04#8] ++ wear x ++ [0x00#8, 0x00#8, byte x.readers, 0#6 ++ weakCode x.weak, 0x00#8,
              flag (((s.die? d).map (·.eraseQueue)).any fun q => q.contains b)] ++ List.replicate 3 0x00#8)
        ∧ (∀ (p : PortId) (o : Order), x.state = .erasing → o ∈ s.ports[p].orders → o.die = d → o.work = .erase b →
            (∀ q < p, ∀ o' ∈ s.ports[q].orders, ¬(o'.die = d ∧ o'.work = .erase b)) →
            payload = [0x05#8] ++ wear x ++ [0x00#8, 0x00#8, 0x00#8, 0#6 ++ weakCode x.weak] ++ List.replicate 4 0x00#8
              ++ [byte p.val])
        ∧ (x.state = .retired →
            payload = [0x06#8] ++ wear x ++ [0x00#8, 0x00#8, 0x00#8, 0#6 ++ weakCode x.weak, 0#5 ++ causeCode x.cause]
              ++ List.replicate 4 0x00#8)

/-- R186, R187: READ_SPARES reports a die's initial reserve and reserve (signed), the lengths of its spare list and erase queue, its
retired count and its health; READ_HISTOGRAM the counts of the wear (selector 00) or mapped (01) histogram in index order. Both are
answered WRONG_STATE without a table and BAD_ARG for a die the table has not, READ_HISTOGRAM for another selector too. Neither changes
anything. R134, 10.2.4: PORT_INFO reports every item of the port, in every table state, and changes nothing; a number above 3 is
answered BAD_ARG. Bit d of the byte of dies owned is set exactly when d is a die of the table that DIE_PORT gives to the port. -/
def Obligations.InquiriesOfDiesAndPorts : Prop :=
  (∀ (die selector : Byte) (s : State), s.Ready →
    (s.tableState.hasTable = false →
      exec (.readSpares die) s = .next (s.responded .wrongState [])
      ∧ exec (.readHistogram die selector) s = .next (s.responded .wrongState []))
    ∧ (s.tableState.hasTable = true → s.die? die.toNat = none →
        exec (.readSpares die) s = .next (s.responded .badArg []) ∧ exec (.readHistogram die selector) s = .next (s.responded .badArg []))
    ∧ ∀ x : Die, s.tableState.hasTable = true → s.die? die.toNat = some x →
        exec (.readSpares die) s = .next (s.responded .ok
          (le32 (BitVec.ofInt 32 x.initialReserve) ++ le32 (BitVec.ofInt 32 x.reserve) ++ le16n x.spares.length
            ++ le16n x.eraseQueue.length ++ le16n x.retired
            ++ [match x.health with | .good => 0x00#8 | .low => 0x01#8 | .exhausted => 0x02#8]))
        ∧ exec (.readHistogram die selector) s = .next (
            if selector = 0x00#8 then s.responded .ok (x.wear.flatMap le16n)
            else if selector = 0x01#8 then s.responded .ok (x.mapped.flatMap le16n)
            else s.responded .badArg []))
  ∧ ((∀ (port : Byte) (s : State), s.Ready → 4 ≤ port.toNat → exec (.portInfo port) s = .next (s.responded .badArg []))
    ∧ ∀ (p : PortId) (s : State), s.Ready → s.geometry.dieCount ≤ 8 →
        let x := s.ports[p]
        ∃ owned : Byte,
          exec (.portInfo (byte p.val)) s = .next (s.responded .ok
            ([match x.link with | .disabled => 0x00#8 | .down => 0x01#8 | .up => 0x02#8, x.epoch, x.lossCause.code, byte x.credits,
                byte x.fifo.length, byte x.outgoing.length, byte x.notices.length, flag x.mapResetFlag, byte x.groupSize]
              ++ le16n x.frameErrors ++ le16n x.overruns ++ le16n x.discards
              ++ [byte (s.leases.toList.countP fun e => e.any fun l => l.port == p), byte s.params.leaseQuota[p],
                  byte (x.orders.countP fun o => o.isErase), byte (x.orders.countP fun o => !o.isErase), x.tagCounter, owned]
              ++ x.orders.flatMap fun o =>
                  match o.work with
                  | .erase b => [0x00#8, o.tag, o.epoch, byte o.die] ++ le16n b ++ [0x00#8, 0x00#8]
                  | .copy a b => [0x01#8, o.tag, o.epoch, byte o.die] ++ le16n a ++ le16n b))
          ∧ ∀ d : SlotId, owned.getLsbD d.val = true ↔ d.val < s.geometry.dieCount ∧ s.params.diePort[d] = p)

/-- R133: PORT_CONTROL of a port that is not UP: ENABLE makes a DISABLED port DOWN, DISABLE a DOWN port DISABLED; ENABLE of an UP port
changes nothing. The response carries the link state after it. A number above 3 is answered BAD_ARG. R119, R124: a HELLO on a DOWN port
brings it UP under the next epoch, with GROUP_SIZE 0, 8 credits owed, the HELLO answer (epoch and table state) placed, and a
consideration owed. In DISABLED it is discarded and counted. -/
def Obligations.PortsThatAreNotUp : Prop :=
  ((∀ (port : Byte) (s : State), s.Ready → 4 ≤ port.toNat →
      exec (.portEnable port) s = .next (s.responded .badArg []) ∧ exec (.portDisable port) s = .next (s.responded .badArg []))
  ∧ ∀ (p : PortId) (s : State), s.Ready →
      (s.ports[p].link = .disabled →
        exec (.portEnable (byte p.val)) s
            = .next (State.responded { s with ports := s.ports.set p { s.ports[p] with link := .down } } .ok [0x01#8])
        ∧ exec (.portDisable (byte p.val)) s = .next (s.responded .ok [0x00#8]))
      ∧ (s.ports[p].link = .down →
        exec (.portEnable (byte p.val)) s = .next (s.responded .ok [0x01#8])
        ∧ exec (.portDisable (byte p.val)) s
            = .next (State.responded { s with ports := s.ports.set p { s.ports[p] with link := .disabled } } .ok [0x00#8]))
      ∧ (s.ports[p].link = .up → exec (.portEnable (byte p.val)) s = .next (s.responded .ok [0x02#8])))
  ∧ (∀ (p : PortId) (tag : Byte) (s : State),
      let x := s.ports[p]
      (x.link = .disabled → exec (.hello p tag) s
        = .next { s with ports := s.ports.set p { x with discards := min (x.discards + 1) 65535 } })
      ∧ (x.link = .down → exec (.hello p tag) s = .next { s with ports := s.ports.set p { x with
          link := .up
          epoch := x.epoch + 1#8
          groupSize := 0
          credits := 8
          outgoing := x.outgoing ++ [⟨0x81#8, tag, [0x00FF0100#32, 0#16 ++ s.tableState.code ++ (x.epoch + 1#8)]⟩]
          issueDue := true } }))

/-! ### The factory bad list and table states (chapter 7) -/

/-- R137: MARK_BAD of 1 to 16 names, each in range, adds the new ones in order, each once, up to 256 entries; it is answered OK, or
LIST_FULL when a new name found the list full, with the number added and the list's length after it. Otherwise it is answered BAD_ARG
and adds nothing. R138: CLEAR_BAD_LIST empties the list and reports the number of entries before; nothing else changes. -/
def Obligations.FactoryBadList : Prop :=
  (∀ (names : List (Byte × Half)) (s : State), s.Ready → s.badList.length ≤ 256 →
    let merged := names.foldl (fun l n =>
      if (⟨n.1.toNat, n.2.toNat⟩ : BlockName) ∈ l then l else l ++ [⟨n.1.toNat, n.2.toNat⟩]) s.badList
    let list := merged.take 256
    exec (.markBad names) s
      = .next (if 1 ≤ names.length ∧ names.length ≤ 16 ∧ ∀ n ∈ names, n.1.toNat ≤ 7 ∧ n.2.toNat ≤ 1023 then
          State.responded { s with badList := list } (if merged.length ≤ 256 then .ok else .listFull)
            (byte (list.length - s.badList.length) :: le16n list.length)
        else s.responded .badArg []))
  ∧ (∀ s : State, s.Ready →
      exec .clearBadList s = .next (State.responded { s with badList := [] } .ok (le16n s.badList.length)))

/-- R139, R25, R44: FORMAT is answered WRONG_STATE outside BLANK and OFFLINE, then SAVING while a save runs, then BAD_ARG for an
argument out of range; otherwise the table is discarded, the table state is FORMATTING, the busy operation is FORMAT, and the response
is BUSY with the started flag. R140: a FORMAT completes with FIXED_BAD, naming the lowest die and block, when the bad list names block 0
or 1 of a die of the geometry; else with NO_ROOM, naming the lowest die whose good blocks, less its homed count, are below MIN_SPARES.
The table state is BLANK, no table exists, the part is no longer busy and OP_DONE is raised. -/
def Obligations.FormatStartsAndFails : Prop :=
  (∀ (dc : Byte) (bpd lc cw : Half) (m : Byte) (s : State), s.Ready →
    exec (.format dc bpd lc cw m) s
      = .next (if s.tableState ≠ .blank ∧ s.tableState ≠ .offline then s.responded .wrongState []
        else if s.save.status = .running then s.responded .saving []
        else if 1 ≤ dc.toNat ∧ dc.toNat ≤ 8 ∧ 64 ≤ bpd.toNat ∧ bpd.toNat ≤ 1024 ∧ bpd.toNat % 64 = 0 ∧ 1 ≤ lc.toNat
            ∧ lc.toNat ≤ 8192 ∧ 1 ≤ m.toNat ∧ m.toNat ≤ 64 then
          State.responded { s with
            table := none
            generation := 0#32
            evaluationsOwed := Vector.replicate 8 0
            tableState := .formatting
            busy := .format ⟨⟨dc.toNat, bpd.toNat, lc.toNat, if cw = 0#16 then 2048 else cw.toNat⟩, m.toNat⟩ } .busy [0x01#8, 0x01#8]
        else s.responded .badArg []))
  ∧ (∀ (a : FormatArgs) (s : State), s.busy = .format a →
      let g := a.geometry
      let failed (result : LastResult) : Host.Outcome State Fault Refusal := .next { s with
        table := none
        generation := 0#32
        evaluationsOwed := Vector.replicate 8 0
        tableState := .blank
        busy := .none
        lastResult := result
        attention := s.attention ||| 0b01000#5 }
      let room (d : Nat) : Prop :=
        g.homed d + a.minSpares ≤ (List.range g.blocksPerDie).countP fun b => decide (2 ≤ b) && !s.badList.contains ⟨d, b⟩
      (∀ d b : Nat, d < g.dieCount → b < 2 → (⟨d, b⟩ : BlockName) ∈ s.badList →
          (∀ n ∈ s.badList, n.die < g.dieCount → n.block < 2 → d < n.die ∨ d = n.die ∧ b ≤ n.block) →
          exec .formatCompletion s = failed (.fixedBad d b))
      ∧ ∀ d : Nat, (∀ n ∈ s.badList, n.die < g.dieCount → 2 ≤ n.block) → d < g.dieCount → ¬room d → (∀ e < d, room e) →
          exec .formatCompletion s = failed (.noRoom d))

/-- R141, R142: a FORMAT that passes its checks ends with the table OFFLINE, generation 0, and nothing under way. On each die, blocks 0 and
1 are FIXED, the blocks the bad list names are RETIRED with cause FACTORY, the good blocks in ascending index take the die's logical
blocks in ascending L at version 0 and risk NONE, and the rest are SPARE and make the spare list. The derived counts follow. OP_DONE is
raised, and DIE_HEALTH when a die is not GOOD. -/
def Obligations.FormatBuildsTheTable : Prop :=
  ∀ (a : FormatArgs) (s : State), s.busy = .format a →
    let g := a.geometry
    let bad (d b : Nat) : Bool := s.badList.contains ⟨d, b⟩
    let good (d : Nat) : List Nat := (List.range g.blocksPerDie).filter fun b => decide (2 ≤ b) && !bad d b
    (∀ n ∈ s.badList, n.die < g.dieCount → 2 ≤ n.block) → 64 ≤ g.blocksPerDie → 1 ≤ g.dieCount →
    (∀ d < g.dieCount, g.homed d + a.minSpares ≤ (good d).length) →
    ∃ t : Table,
      let applying := s.badList.countP fun n => decide (n.die < g.dieCount) && decide (n.block < g.blocksPerDie)
      exec .formatCompletion s = .next { s with
        table := some t
        generation := 0#32
        tableState := .offline
        busy := .none
        lastResult := .formatOk applying (s.badList.length - applying)
        leases := Vector.replicate 64 none
        relocations := Vector.replicate 8 none
        waiting := []
        ports := s.ports.map fun x => { x with orders := [] }
        attention := (if t.dies.any fun x => x.health != .good then s.attention ||| 0b00001#5 else s.attention) ||| 0b01000#5 }
      ∧ t.geometry = g ∧ t.logical.length = g.logicalCount ∧ t.dies.length = g.dieCount
      ∧ ∀ (d : Nat) (x : Die), t.dies[d]? = some x →
          (∀ b < 2, x.blocks[b]? = some ⟨⟨.fixed, 0, none, none⟩, none, 0⟩)
          ∧ (∀ b : Nat, 2 ≤ b → b < g.blocksPerDie → bad d b = true →
              x.blocks[b]? = some ⟨⟨.retired, 0, none, some .factory⟩, none, 0⟩)
          ∧ (∀ (k b : Nat), (good d)[k]? = some b →
              (k < g.homed d → x.blocks[b]? = some ⟨⟨.mapped, 0, none, none⟩, some (d + k * g.dieCount), 0⟩
                ∧ t.logical[d + k * g.dieCount]? = some ⟨⟨some b, 0#16, .none⟩, none, false⟩)
              ∧ (g.homed d ≤ k → x.blocks[b]? = some ⟨⟨.spare, 0, none, none⟩, none, 0⟩))
          ∧ x.blocks.length = g.blocksPerDie ∧ x.spares = (good d).drop (g.homed d) ∧ x.eraseQueue = [] ∧ x.rescue = []
          ∧ x.retired = (List.range g.blocksPerDie).countP (bad d)
          ∧ x.reserve = (g.blocksPerDie : Int) - 2 - x.retired - g.homed d ∧ x.initialReserve = x.reserve
          ∧ x.health = (if x.reserve ≤ 0 then Health.exhausted else if x.reserve < s.params.spareWarn then .low else .good)
          ∧ x.wear = (good d).length :: List.replicate 62 0 ++ [2] ∧ x.mapped = g.homed d :: List.replicate 63 0

/-- R143, R81, R103: GO_ONLINE in OFFLINE makes the table ONLINE, owes every die of the table an evaluation and every port a
consideration, and changes nothing else; in another state it is answered WRONG_STATE. -/
def Obligations.GoOnlineStartsTheTable : Prop :=
  ∀ s : State, s.Ready →
    exec .goOnline s
      = .next (if s.tableState = .offline then
          State.responded { s with
            tableState := .online
            evaluationsOwed := Vector.ofFn fun d => s.evaluationsOwed[d] + if d.val < s.geometry.dieCount then 1 else 0
            ports := s.ports.map fun x => { x with issueDue := true } } .ok []
        else s.responded .wrongState [])

/-- R145, R144: GO_OFFLINE outside ONLINE is answered WRONG_STATE. In ONLINE, with no relocation in WAIT_SLOT, it starts a plain drain,
or, with no lease open and no order issued, ends at once with the table OFFLINE and DRAINED raised; the response carries the table
state. R145, R95: GO_OFFLINE in ONLINE drops the relocation in WAIT_SLOT of each die: it is freed, its destination returns to the spare
list and becomes SPARE, its logical block's link is cleared, and a RESCUE logical block returns to the head of its rescue queue (R75,
R77: where it has no entry there and the queue has room). The leases, the ports and every COPYING or CANCELLED relocation stay. The
generation steps once when one is dropped, and not otherwise. R144: the drain check, where one is owed: DRAINING with no lease open and
no order issued, the table becomes OFFLINE, the drain kind NONE, and DRAINED is raised; with one remaining, nothing changes. That a check
is owed in the state, and that one not owed changes nothing, is the model's choice (log entries 3 and 4). -/
def Obligations.DrainStartsAndEnds : Prop :=
  (∀ s : State, s.Ready →
    (s.tableState ≠ .online → exec .goOffline s = .next (s.responded .wrongState []))
    ∧ (s.tableState = .online → (∀ (d : Nat) (r : Relocation), s.relocation? d = some r → r.state ≠ .waitSlot) →
        ((∀ id : Nat, s.lease? id = none) ∧ (∀ p : PortId, s.ports[p].orders = []) →
          exec .goOffline s = .next (State.responded { s with
            tableState := .offline
            drainKind := .none
            drainCheckDue := false
            attention := s.attention ||| 0b10000#5 } .ok [0x03#8]))
        ∧ ((∃ id : Nat, s.lease? id ≠ none) ∨ (∃ p : PortId, s.ports[p].orders ≠ []) →
          exec .goOffline s = .next (State.responded { s with tableState := .draining, drainKind := .plain } .ok [0x05#8]))))
  ∧ (∀ s : State, s.Ready → s.tableState = .online →
      (∀ (d : Nat) (r : Relocation), s.relocation? d = some r → r.state = .waitSlot → s.home r.logical = d) →
      ∃ t : State, exec .goOffline s = .next (t.responded .ok [t.tableState.code])
        ∧ t.leases = s.leases ∧ t.ports = s.ports ∧ t.params = s.params ∧ t.lastResult = s.lastResult ∧ t.badList = s.badList
        ∧ ((∀ id : Nat, s.lease? id = none) ∧ (∀ p : PortId, s.ports[p].orders = []) →
            t.tableState = .offline ∧ t.drainKind = .none ∧ t.drainCheckDue = false ∧ Cause.drained.isIn t.attention = true)
        ∧ ((∃ id : Nat, s.lease? id ≠ none) ∨ (∃ p : PortId, s.ports[p].orders ≠ []) →
            t.tableState = .draining ∧ t.drainKind = .plain ∧ t.drainCheckDue = s.drainCheckDue)
        ∧ ((∀ (d : Nat) (r : Relocation), s.relocation? d = some r → r.state ≠ .waitSlot) → t.generation = s.generation)
        ∧ ((∃ (d : Nat) (r : Relocation) (y : PhysRecord), s.relocation? d = some r ∧ r.state = .waitSlot
              ∧ s.phys? d r.destination = some y ∧ y.state = .allocated) → t.generation = s.generation + 1#32)
        ∧ (∀ (d : Nat) (r : Relocation), s.relocation? d = some r → r.state ≠ .waitSlot → t.relocation? d = some r)
        ∧ ∀ (d : Nat) (r : Relocation) (x : LogicalRecord) (y : PhysRecord), s.relocation? d = some r → r.state = .waitSlot →
            s.logical? r.logical = some x → s.phys? d r.destination = some y →
            t.relocation? d = none ∧ d ∉ t.waiting ∧ t.logical? r.logical = some { x with relocating := false }
            ∧ t.phys? d r.destination = some { y with state := .spare, owner := none } ∧ r.destination ∈ t.spares d
            ∧ t.rescue d = if r.kind = .rescue ∧ r.logical ∉ s.rescue d ∧ (s.rescue d).length < 16 then r.logical :: s.rescue d
                else s.rescue d)
  ∧ (∀ s : State,
      (s.drainCheckDue = false → exec .drainCheck s = .next s)
      ∧ (s.drainCheckDue = true → s.tableState = .draining → (∀ id : Nat, s.lease? id = none) → (∀ p : PortId, s.ports[p].orders = []) →
          exec .drainCheck s = .next { s with
            tableState := .offline
            drainKind := .none
            drainCheckDue := false
            attention := s.attention ||| 0b10000#5 })
      ∧ (s.drainCheckDue = true →
          (s.tableState ≠ .draining ∨ (∃ id : Nat, s.lease? id ≠ none) ∨ ∃ p : PortId, s.ports[p].orders ≠ []) →
          exec .drainCheck s = .next { s with drainCheckDue := false }))

/-- R146, R70, R96, R95: GO_OFFLINE with FORCE outside ONLINE and DRAINING is answered WRONG_STATE. In them it leaves no lease open and every
order issued. Each holder's LEASE_REVOKED notices stand, in ascending lease id, in its outgoing queue and, where that is full, its pending
notice set (R128). The table is OFFLINE with DRAINED raised when no order is issued, and else DRAINING with drain kind FORCED; the response
carries the table state. Where the records are in step (`RecordsKept`): each relocation in COPYING stays in its slot as CANCELLED with its
destination and order, each in WAIT_SLOT is freed and its destination SPARE again, every logical record's links are cleared and its fields
kept, and the logical block of an active RESCUE is at the head of its rescue queue, or finds it full (DATA_AT_RISK). The destination of a
WRITE lease becomes STALE and joins the erase queue, a trigger for its die. Every reader is gone: a STALE block that had readers joins the
erase queue, or retires with its mark's cause. The generation steps once when a WRITE lease is abandoned, a relocation dropped or a block
retired, and not otherwise. -/
def Obligations.ForcedDrainRevokesEveryLease : Prop :=
  ∀ s : State, s.Ready →
    (s.tableState ≠ .online → s.tableState ≠ .draining → exec .goOfflineForce s = .next (s.responded .wrongState []))
    ∧ (s.tableState = .online ∨ s.tableState = .draining → s.ControlKept →
        let notices (q : PortId) : List LeaseNotice := (List.range 64).filterMap fun id =>
          (s.lease? id).bind fun l => if l.port = q then some (l.notice .revoked id) else none
        let room (q : PortId) : Nat := 32 - s.ports[q].outgoing.length
        let abandons : Prop := ∃ (id : Nat) (x : Lease) (l b attempt : Nat), s.lease? id = some x ∧ x.body = .write l b attempt
        let drops : Prop := ∃ (d : Nat) (r : Relocation), s.relocation? d = some r ∧ r.state = .waitSlot
        let retires : Prop := ∃ (d b : Nat) (y : PhysRecord), s.phys? d b = some y ∧ y.state = .stale ∧ y.readers ≠ 0 ∧ y.weak ≠ none
        let full (r : Relocation) : Prop := r.active = true ∧ r.kind = .rescue ∧ 16 ≤ (s.rescue (s.home r.logical)).length
        ∃ t : State, exec .goOfflineForce s = .next (t.responded .ok [t.tableState.code])
          ∧ (∀ id : Nat, t.lease? id = none)
          ∧ (∀ (d : Nat) (r : Relocation), t.relocation? d = some r → r.active = false)
          ∧ (∀ q : PortId, t.ports[q] = { s.ports[q] with
              outgoing := s.ports[q].outgoing ++ ((notices q).take (room q)).map LeaseNotice.frame
              notices := s.ports[q].notices ++ (notices q).drop (room q)
              issueDue := t.ports[q].issueDue })
          ∧ t = { s with
            tableState := t.tableState
            drainKind := t.drainKind
            drainCheckDue := t.drainCheckDue
            table := t.table
            generation := t.generation
            leases := Vector.replicate 64 none
            relocations := t.relocations
            waiting := t.waiting
            evaluationsOwed := t.evaluationsOwed
            ports := t.ports
            save := t.save
            attention := t.attention }
          ∧ ((∀ p : PortId, s.ports[p].orders = []) →
              t.tableState = .offline ∧ t.drainKind = .none ∧ Cause.drained.isIn t.attention = true)
          ∧ ((∃ p : PortId, s.ports[p].orders ≠ []) → t.tableState = .draining ∧ t.drainKind = .forced)
          ∧ (s.DiesKept → s.RecordsKept →
              t.waiting = []
              ∧ (∀ (d : Nat) (r : Relocation), s.relocation? d = some r → t.relocation? d = match r.state with
                | .waitSlot => none
                | .copying tag epoch => some { r with state := .cancelled tag epoch }
                | .cancelled _ _ => some r)
              ∧ (∀ (l : Nat) (r : LogicalRecord), s.logical? l = some r →
                  t.logical? l = some { r with writeLease := none, relocating := false })
              ∧ (∀ (d b : Nat) (y : PhysRecord), s.phys? d b = some y →
                  (y.state = .mapped → t.phys? d b = some { y with readers := 0 })
                  ∧ (y.state = .stale → y.weak = none → t.phys? d b = some { y with readers := 0 })
                  ∧ (∀ m : WeakMark, y.state = .stale → y.weak = some m → t.phys? d b
                      = some { y with state := .retired, cause := some (if m = .host then .host else .weak), readers := 0 })
                  ∧ (∀ id : Nat, s.LeaseTakes id d b → t.phys? d b = some { y with state := .stale })
                  ∧ (∀ r : Relocation, s.relocation? d = some r → r.destination = b →
                      t.phys? d b = some (if r.state = .waitSlot then { y with state := .spare } else y))
                  ∧ (y.state ≠ .mapped → y.state ≠ .stale → y.state ≠ .allocated → t.phys? d b = some y))
              ∧ (∀ (d : Nat) (x : Die), s.die? d = some x → ∃ z, t.die? d = some z
                  ∧ z.rescue = (match s.relocation? d with
                    | some r => if r.active = true ∧ r.kind = .rescue ∧ x.rescue.length < 16 then r.logical :: x.rescue else x.rescue
                    | none => x.rescue)
                  ∧ x.eraseQueue <+: z.eraseQueue ∧ (∀ b : Nat, b ∈ z.eraseQueue ↔ ∃ y, z.blocks[b]? = some y ∧ y.state = .stale)
                  ∧ (∀ b : Nat, b ∈ z.spares ↔ ∃ y, z.blocks[b]? = some y ∧ y.state = .spare)
                  ∧ z.retired = z.blocks.countP (fun y => y.state == .retired) ∧ z.reserve = x.reserve + x.retired - z.retired
                  ∧ z.health = healthOf s.params.spareWarn z.reserve)
              ∧ (∀ d : SlotId, t.evaluationsOwed[d] = s.evaluationsOwed[d] + s.leases.toList.countP fun e =>
                  e.any fun x => match x.body with | .write l _ _ => s.home l == d.val | .read _ => false)
              ∧ (∀ q : PortId, t.ports[q].issueDue = true ↔ s.ports[q].issueDue = true
                  ∨ ∃ (d : Nat) (x z : Die), s.die? d = some x ∧ t.die? d = some z ∧ z.eraseQueue ≠ x.eraseQueue ∧ s.diePort d = q)
              ∧ (abandons ∨ drops ∨ retires → t.generation = s.generation + 1#32)
              ∧ (¬(abandons ∨ drops ∨ retires) → t.generation = s.generation)
              ∧ (∃ a : CauseSet, s.Saves t.save a)
              ∧ ∀ c : Cause, c.isIn t.attention = true ↔ c.isIn s.attention = true ∨ match c with
                | .dieHealth => ∃ (d : Nat) (x z : Die), s.die? d = some x ∧ t.die? d = some z ∧ z.health ≠ x.health
                | .portFault => False
                | .dataAtRisk => ∃ (d : Nat) (r : Relocation), s.relocation? d = some r ∧ full r
                | .opDone => s.save.status = .running ∧ t.save.status = .shadowFull
                | .drained => t.tableState = .offline))

/-- R148, R25, R44, R48, R97, R114, R129, R163, R170: MAP_RESET, in every table state, drops the table, its lists and counts, every
lease, relocation and order, ends a receiving load and a running save, and places on each UP port the MAP_RESET notice, or sets its flag
in place of its pending notices when its queue is full. The table state is BLANK; what is not named keeps its value. R150: device reset
gives every item its initial value: the table state BLANK and no table, no lease, relocation or order, every port DOWN with epoch 0 and
its counters 0, no load, no save, no transaction, not busy, no cause pending, an empty factory bad list, and each parameter its default.
The commands that wait are not the part's, and stay: the model's choice (log entry 11), as is the empty save header (log entry 18). -/
def Obligations.Resets : Prop :=
  (∀ s : State, s.Ready →
    exec .mapReset s = .next (State.responded { s with
      table := none
      generation := 0#32
      evaluationsOwed := Vector.replicate 8 0
      tableState := .blank
      drainKind := .none
      drainCheckDue := false
      leases := Vector.replicate 64 none
      relocations := Vector.replicate 8 none
      waiting := []
      ports := s.ports.map fun x => { x with
        orders := []
        lastEraseDie := none
        outgoing := if x.link = .up ∧ x.outgoing.length < 32 then x.outgoing ++ [⟨0x83#8, 0#8, [0x00FFFF03#32]⟩] else x.outgoing
        notices := if x.link = .up ∧ 32 ≤ x.outgoing.length then [] else x.notices
        mapResetFlag := if x.link = .up ∧ 32 ≤ x.outgoing.length then true else x.mapResetFlag }
      load := if s.load.phase = .idle then s.load
        else { s.load with phase := .idle, sum := 0#32, named := [], build := ImageBuild.empty }
      save := if s.save.status = .running then { s.save with status := .aborted, shadow := [] } else s.save } .ok []))
  ∧ ((∀ s : State, exec .deviceReset s = .next { State.reset with pending := s.pending })
    ∧ State.reset.tableState = .blank ∧ State.reset.table = none ∧ State.reset.generation = 0#32 ∧ State.reset.drainKind = .none
    ∧ State.reset.badList = [] ∧ (∀ id : Nat, State.reset.lease? id = none) ∧ (∀ d : Nat, State.reset.relocation? d = none)
    ∧ State.reset.waiting = [] ∧ State.reset.lastServed = none
    ∧ (∀ p : PortId, State.reset.ports[p].link = .down ∧ State.reset.ports[p].epoch = 0#8 ∧ State.reset.ports[p].Empty
        ∧ State.reset.ports[p].lossCause = .none ∧ State.reset.ports[p].groupSize = 0 ∧ State.reset.ports[p].frameErrors = 0
        ∧ State.reset.ports[p].overruns = 0 ∧ State.reset.ports[p].discards = 0 ∧ State.reset.ports[p].tagCounter = 0#8
        ∧ State.reset.ports[p].lastEraseDie = none)
    ∧ State.reset.load.phase = .idle ∧ State.reset.load.fault = none ∧ State.reset.load.received = 0 ∧ State.reset.load.size = none
    ∧ State.reset.load.sum = 0#32 ∧ State.reset.load.named = []
    ∧ State.reset.save.status = .none ∧ State.reset.save.position = 0 ∧ State.reset.save.size = 0 ∧ State.reset.save.sum = 0#32
    ∧ State.reset.save.shadow = [] ∧ State.reset.save.header = [] ∧ State.reset.phase = .idle ∧ State.reset.busy = .none
    ∧ State.reset.lastResult = .none ∧ State.reset.attention = 0#5 ∧ State.reset.attnLine = false
    ∧ State.reset.params.levelEnable = true ∧ State.reset.params.levelGap = 4 ∧ State.reset.params.spareWarn = 8
    ∧ State.reset.params.leaseLimit = 2000 ∧ State.reset.params.orderLimit = 500
    ∧ (∀ p : PortId, State.reset.params.leaseQuota[p] = 16) ∧ (∀ d : SlotId, (State.reset.params.diePort[d]).val = d.val % 4)
    ∧ State.reset.params.attnMask = 0b11111#5)

/-! ### Loading and saving (chapter 8) -/

/-- R155: LOAD_BEGIN is answered WRONG_STATE outside BLANK and OFFLINE, then SAVING while a save runs; otherwise the table is discarded
and an empty stream is RECEIVING in LOADING. The part is not busy. R156: LOAD_DATA outside RECEIVING is answered WRONG_STATE, and with 0
or more than 64 words BAD_ARG; otherwise it takes its words in order, one after the other as `LoadTakesAWord` states, and answers words
received and the first fault. LOAD_END (R160) outside RECEIVING is answered WRONG_STATE; otherwise the phase is CHECKING, the part is
busy and the response is BUSY with the started flag. -/
def Obligations.LoadCommands : Prop :=
  (∀ s : State, s.Ready →
    exec .loadBegin s
      = .next (if s.tableState ≠ .blank ∧ s.tableState ≠ .offline then s.responded .wrongState []
        else if s.save.status = .running then s.responded .saving []
        else State.responded { s with
          table := none
          generation := 0#32
          evaluationsOwed := Vector.replicate 8 0
          tableState := .loading
          load := ⟨.receiving, 0, none, 0#32, none, [], ImageBuild.empty⟩ } .ok []))
  ∧ (∀ (words : List Word) (s : State), s.Ready →
      (s.load.phase ≠ .receiving →
        exec (.loadData words) s = .next (s.responded .wrongState []) ∧ exec .loadEnd s = .next (s.responded .wrongState []))
      ∧ (s.load.phase = .receiving →
        (words.length = 0 ∨ 65 ≤ words.length → exec (.loadData words) s = .next (s.responded .badArg []))
        ∧ (1 ≤ words.length → words.length ≤ 64 →
            let l := words.foldl LoadStream.takeWord s.load
            exec (.loadData words) s = .next (State.responded { s with load := l } .ok
              (le16n l.received ++ match l.fault with | none => [0x00#8, 0x00#8, 0x00#8] | some (fault, i) => fault.code :: le16n i)))
        ∧ exec .loadEnd s = .next (State.responded { s with load := { s.load with phase := .checking }, busy := .loadEnd } .busy
            [0x02#8, 0x01#8])))

/-- R156 to R159, R190: what a word does to a stream, by its place. After a first fault it is only counted. At or beyond the load size it is
kept as LENGTH, not summed. Otherwise it is summed, and: words 0 to 4 are checked (MAGIC, VERSION, GEOMETRY) and the geometry recorded, word
3 giving the load size; word 5 is the generation; words 8 on are the initial reserves of the dies of the geometry; a logical record is
checked for RANGE and then DUPLICATE, recorded, and its block named; a physical record is checked for STATE_CODE and recorded; the check
word is only summed. -/
def Obligations.LoadTakesAWord : Prop :=
  ∀ (x : LoadStream) (w : Word),
    let i := x.received
    let g := x.build.geometry
    let n := min (i + 1) 65535
    let summed : LoadStream := { x with received := n, sum := x.sum + w }
    let lo := (w.extractLsb' 0 16).toNat
    let hi := (w.extractLsb' 16 16).toNat
    (x.fault ≠ none → x.takeWord w = { x with received := n })
    ∧ (x.fault = none → (∀ size : Nat, x.size = some size → size ≤ i → x.takeWord w = { x with received := n, fault := some (.length, i) })
      ∧ ((∀ size : Nat, x.size = some size → i < size) →
        (i = 0 → x.takeWord w = if w = 0x6B5A0640#32 then summed else { summed with fault := some (.magic, 0) })
        ∧ (i = 1 → x.takeWord w = if w = 1#32 then summed else { summed with fault := some (.version, 1) })
        ∧ (i = 2 → x.takeWord w =
            if 1 ≤ lo ∧ lo ≤ 8 ∧ 64 ≤ hi ∧ hi ≤ 1024 ∧ hi % 64 = 0 then
              { summed with build := { x.build with geometry := { g with dieCount := lo, blocksPerDie := hi } } }
            else { summed with fault := some (.geometry, 2) })
        ∧ (i = 3 → x.takeWord w =
            if 1 ≤ w.toNat ∧ w.toNat ≤ 8192 ∧ Geometry.homed { g with logicalCount := w.toNat } 0 ≤ g.blocksPerDie - 2 then
              { summed with
                build := { x.build with geometry := { g with logicalCount := w.toNat } }
                size := some (16 + w.toNat + g.dieCount * g.blocksPerDie + 1) }
            else { summed with fault := some (.geometry, 3) })
        ∧ (i = 4 → x.takeWord w =
            if 1 ≤ w.toNat ∧ w.toNat ≤ 65535 then
              { summed with build := { x.build with geometry := { g with classWidth := w.toNat } } }
            else { summed with fault := some (.geometry, 4) })
        ∧ (i = 5 → x.takeWord w = { summed with build := { x.build with generation := w } })
        ∧ (i = 6 ∨ i = 7 → x.takeWord w = summed)
        ∧ (8 ≤ i → i < 16 → x.takeWord w =
            if i - 8 < g.dieCount then { summed with build := { x.build with initialReserves := x.build.initialReserves ++ [w.toInt] } }
            else summed)
        ∧ (16 ≤ i → i < 16 + g.logicalCount → x.takeWord w =
            let d := (i - 16) % g.dieCount
            let b := (w.extractLsb' 16 10).toNat
            if w.getLsbD 31 = true then
              if b < 2 ∨ g.blocksPerDie ≤ b then { summed with fault := some (.range, i) }
              else if (d, b) ∈ x.named then { summed with fault := some (.duplicate, i) }
              else { summed with
                build := { x.build with logical := x.build.logical
                  ++ [⟨some b, w.extractLsb' 0 16, if w.getLsbD 30 = true then .unreadable else .none⟩] }
                named := x.named ++ [(d, b)] }
            else { summed with build := { x.build with logical := x.build.logical ++ [⟨none, w.extractLsb' 0 16, .none⟩] } })
        ∧ (16 + g.logicalCount ≤ i → i < 16 + g.logicalCount + g.dieCount * g.blocksPerDie → 16 ≤ i →
            x.takeWord w = match physicalOfWord ((i - 16 - g.logicalCount) % g.blocksPerDie) w with
              | none => { summed with fault := some (.stateCode, i) }
              | some r => { summed with build := { x.build with physical := x.build.physical ++ [r] } })
        ∧ (16 ≤ i → i = 16 + g.logicalCount + g.dieCount * g.blocksPerDie → x.takeWord w = summed)))

/-- R153, R158, R190, 10.3: a physical record word of block `b` passes exactly when its codes name a state, a weak mark or none, and a
retire cause or none, FIXED stands exactly at blocks 0 and 1, no FIXED, SPARE or ALLOCATED record is marked, and a cause stands exactly
at RETIRED; it then gives those fields, and the count but for FIXED. A record that passes so is read back from the word a save writes
for it. R153, 10.3: a logical record is read back from the word a save writes for it: an UNMAPPED one of risk NONE, and a MAPPED one
whose block index is below 1024. Bits 26 to 29 of the word are not read (R190). -/
def Obligations.RecordWords : Prop :=
  ((∀ (b : Nat) (w : Word),
    let state := w.extractLsb' 24 3
    let weak := w.extractLsb' 27 2
    let cause := w.extractLsb' 29 3
    ((physicalOfWord b w).isSome = true ↔
      state ≠ 7#3 ∧ weak ≠ 3#2 ∧ cause ≠ 7#3 ∧ (state = 0#3 ↔ b < 2) ∧ (weak ≠ 0#2 → 3 ≤ state.toNat) ∧ (cause ≠ 0#3 ↔ state = 6#3))
    ∧ ∀ r : PhysFields, physicalOfWord b w = some r →
        r.state.code = state ∧ weakCode r.weak = weak ∧ causeCode r.cause = cause
        ∧ r.eraseCount = if state = 0#3 then 0 else (w.extractLsb' 0 24).toNat)
  ∧ ∀ (b : Nat) (r : PhysFields), r.eraseCount < 16777216 → (r.state = .fixed ↔ b < 2) → (r.state = .fixed → r.eraseCount = 0) →
      (r.weak ≠ none → r.state ≠ .fixed ∧ r.state ≠ .spare ∧ r.state ≠ .allocated) → (r.cause ≠ none ↔ r.state = .retired) →
      physicalOfWord b r.word = some r)
  ∧ ((∀ r : LogicalFields, (∀ b : Nat, r.block = some b → b < 1024) → (r.block = none → r.risk = .none) → logicalOfWord r.word = r)
    ∧ ∀ w v : Word, (∀ k : Nat, k < 26 ∨ 30 ≤ k → w.getLsbD k = v.getLsbD k) → logicalOfWord w = logicalOfWord v)

/-- R160, R161: a load that is CHECKING completes with its first fault; else SHORT at words received, when the size is absent or not
reached; else CHECK at the last word, when the sum is not 0; else ORPHAN at the first physical record that is MAPPED and not named, or named
and not MAPPED. The table state is BLANK and no table exists; the stream keeps words received, size and first fault, and is otherwise
emptied. -/
def Obligations.LoadFailsItsChecks : Prop :=
  ∀ s : State, s.load.phase = .checking →
    let x := s.load
    let g := x.build.geometry
    let failed (fault : LoadFault) (i : Nat) : Host.Outcome State Fault Refusal := .next { s with
      load := { x with phase := .idle, sum := 0#32, named := [], build := ImageBuild.empty }
      table := none
      generation := 0#32
      evaluationsOwed := Vector.replicate 8 0
      tableState := .blank
      busy := .none
      lastResult := .loadFault fault i
      attention := s.attention ||| 0b01000#5 }
    let orphan (k : Nat) : Prop := ∃ r, x.build.physical[k]? = some r ∧
      ((r.state = .mapped ∧ (k / g.blocksPerDie, k % g.blocksPerDie) ∉ x.named)
        ∨ (r.state ≠ .mapped ∧ (k / g.blocksPerDie, k % g.blocksPerDie) ∈ x.named))
    (∀ (fault : LoadFault) (i : Nat), x.fault = some (fault, i) → exec .loadCompletion s = failed fault i)
    ∧ (x.fault = none → (x.size = none ∨ ∃ n, x.size = some n ∧ x.received < n) → exec .loadCompletion s = failed .short x.received)
    ∧ ∀ n : Nat, x.fault = none → x.size = some n → n ≤ x.received →
        (x.sum ≠ 0#32 → exec .loadCompletion s = failed .check (n - 1))
        ∧ ∀ k : Nat, x.sum = 0#32 → orphan k → (∀ j < k, ¬orphan j) →
            exec .loadCompletion s = failed .orphan (16 + g.logicalCount + k)

/-- R162: a load that passes every check ends with the table OFFLINE at the image's generation and nothing under way. ALLOCATED, ERASING and
STALE blocks become STALE, or RETIRED with the mark's cause when marked; every other record is as the image has it; no block has readers, and
a MAPPED block's owner is the logical record that names it. The lists, queues and counts of each die are made from its records, index 63
of its wear histogram counting the FIXED blocks, 2 where they stand at blocks 0 and 1 alone, that of its mapped histogram 0; OP_DONE is raised, DIE_HEALTH when a die is not GOOD, and DATA_AT_RISK when a die has more than 16 weak MAPPED blocks. -/
def Obligations.LoadBuildsTheTable : Prop :=
  ∀ (s : State) (n : Nat), s.load.phase = .checking → s.load.fault = none → s.load.size = some n → n ≤ s.load.received →
    s.load.sum = 0#32 →
    let x := s.load.build
    let g := x.geometry
    (∀ (k : Nat) (r : PhysFields), x.physical[k]? = some r →
      (r.state = .mapped ↔ (k / g.blocksPerDie, k % g.blocksPerDie) ∈ s.load.named)) →
    ∃ (t : Table) (risk : Bool),
      exec .loadCompletion s = .next { s with
        load := { s.load with phase := .idle, sum := 0#32, named := [], build := ImageBuild.empty }
        table := some t
        generation := x.generation
        tableState := .offline
        busy := .none
        lastResult := .loadOk x.generation
        leases := Vector.replicate 64 none
        relocations := Vector.replicate 8 none
        waiting := []
        ports := s.ports.map fun p => { p with orders := [] }
        attention :=
          (((if t.dies.any fun y => y.health != .good then s.attention ||| 0b00001#5 else s.attention) ||| 0b01000#5)
            ||| if risk then 0b00100#5 else 0#5) }
      ∧ t.geometry = g ∧ t.logical = x.logical.map (fun r => ⟨r, none, false⟩) ∧ t.dies.length = g.dieCount
      ∧ (∀ (d : Nat) (y : Die), t.dies[d]? = some y →
          y.blocks.length = g.blocksPerDie
          ∧ (∀ (b : Nat) (r : PhysFields), b < g.blocksPerDie → x.physical[d * g.blocksPerDie + b]? = some r →
              ∃ owner : Option Nat,
                y.blocks[b]? = some ⟨(
                  if r.state = .allocated ∨ r.state = .erasing ∨ r.state = .stale then
                    match r.weak with
                    | none => { r with state := .stale }
                    | some .port => { r with state := .retired, cause := some .weak }
                    | some .host => { r with state := .retired, cause := some .host }
                  else r), owner, 0⟩
                ∧ (r.state ≠ .mapped → owner = none)
                ∧ (r.state = .mapped → ∀ (l : Nat) (v : LogicalFields), x.logical[l]? = some v → v.block = some b → g.home l = d →
                    (∀ k < l, ∀ u : LogicalFields, x.logical[k]? = some u → u.block = some b → g.home k ≠ d) → owner = some l))
          ∧ (∀ b : Nat, b ∈ y.spares ↔ ∃ r, y.blocks[b]? = some r ∧ r.state = .spare)
          ∧ y.spares.Pairwise (fun a b => y.eraseCount a < y.eraseCount b ∨ y.eraseCount a = y.eraseCount b ∧ a < b)
          ∧ y.eraseQueue = (List.range g.blocksPerDie).filter (fun b => y.blocks[b]?.any fun r => r.state == .stale)
          ∧ y.rescue = ((List.range x.logical.length).filter fun l => g.home l == d
              && x.logical[l]?.any fun r => r.block.any fun b => y.blocks[b]?.any fun z => z.state == .mapped && z.weak.isSome).take 16
          ∧ y.retired = y.blocks.countP (fun r => r.state == .retired)
          ∧ y.reserve = (g.blocksPerDie : Int) - 2 - y.retired - g.homed d
          ∧ (∀ v : Int, x.initialReserves[d]? = some v → y.initialReserve = v)
          ∧ y.health = healthOf s.params.spareWarn y.reserve
          ∧ Counts y.wear (wearClass g.classWidth) y.blocks ∧ Counts y.mapped (mappedClass g.classWidth) y.blocks
          ∧ y.wear[63]? = some (y.blocks.countP fun r => r.state == .fixed) ∧ y.mapped[63]? = some 0
          ∧ (2 ≤ g.blocksPerDie → g.dieCount * g.blocksPerDie ≤ x.physical.length →
              (∀ (k : Nat) (r : PhysFields), x.physical[k]? = some r → (r.state = .fixed ↔ k % g.blocksPerDie < 2)) →
              y.wear[63]? = some 2))
      ∧ (risk = true ↔ ∃ (d : Nat) (y : Die), t.dies[d]? = some y ∧
          16 < ((List.range x.logical.length).filter fun l => g.home l == d
            && x.logical[l]?.any fun r => r.block.any fun b => y.blocks[b]?.any fun z => z.state == .mapped && z.weak.isSome).length)

/-- R166: SAVE_BEGIN without a table is answered WRONG_STATE, and while a save runs SAVING; otherwise a save of this size starts, its
header fixed from the table and the generation, at position 0 with no shadow entry, and the response carries size and generation. R170:
SAVE_ABORT, in every table state, ends a running save, ABORTED, its shadow entries freed, and reports whether it ended one. -/
def Obligations.SaveBeginAndAbort : Prop :=
  (∀ s : State, s.Ready →
    (s.tableState.hasTable = false → exec .saveBegin s = .next (s.responded .wrongState []))
    ∧ (s.tableState.hasTable = true → s.save.status = .running → exec .saveBegin s = .next (s.responded .saving []))
    ∧ ∀ t : Table, s.tableState.hasTable = true → s.save.status ≠ .running → s.table = some t →
        let g := t.geometry
        let size := 16 + g.logicalCount + g.dieCount * g.blocksPerDie + 1
        let initial (d : Nat) : Word := BitVec.ofInt 32 ((t.dies[d]?).map (·.initialReserve) |>.getD 0)
        exec .saveBegin s = .next (State.responded { s with save := ⟨.running, size, 0,
          [0x6B5A0640#32, 1#32, BitVec.ofNat 16 g.blocksPerDie ++ BitVec.ofNat 16 g.dieCount, BitVec.ofNat 32 g.logicalCount,
            BitVec.ofNat 32 g.classWidth, s.generation, 0#32, 0#32, initial 0, initial 1, initial 2, initial 3, initial 4, initial 5,
            initial 6, initial 7], 0#32, []⟩ } .ok (le16n size ++ le32 s.generation)))
  ∧ (∀ s : State, s.Ready →
      exec .saveAbort s = .next (
        if s.save.status = .running then
          State.responded { s with save := { s.save with status := .aborted, shadow := [] } } .ok [0x01#8]
        else s.responded .ok [0x00#8]))

/-- R167, R170: SAVE_DATA of 0 or more than 64 words is answered BAD_ARG, and with no save running WRONG_STATE. Otherwise it delivers
from the sweep position on as many words as asked or remain: each header or record word as it stands (stated below), summed, its shadow
entry freed; the last one, the check word, is the two's complement of the sum, completes the save and raises OP_DONE. The response
carries the position after the command and the words. R167: word `k` of the image being saved: the save header's word; or for a record
the contents of its shadow entry, or its own where it has none, as 10.3 writes them. -/
def Obligations.SaveDataDeliversTheSweep : Prop :=
  (∀ (count : Byte) (s : State), s.Ready →
    (count = 0#8 ∨ 65 ≤ count.toNat → exec (.saveData count) s = .next (s.responded .badArg []))
    ∧ (1 ≤ count.toNat → count.toNat ≤ 64 → s.save.status ≠ .running → exec (.saveData count) s = .next (s.responded .wrongState []))
    ∧ (1 ≤ count.toNat → count.toNat ≤ 64 → s.save.status = .running → s.save.position < s.save.size →
        let v := s.save
        let n := min count.toNat (v.size - v.position)
        let records := (List.range (min n (v.size - 1 - v.position))).map fun i => s.saveWord (v.position + i)
        let sum := v.sum + wordSum records
        let kept := v.shadow.filter fun e => decide (e.index s.geometry < v.position ∨ v.position + n ≤ e.index s.geometry)
        exec (.saveData count) s = .next (
          if v.position + n < v.size then
            State.responded { s with save := { v with position := v.position + n, sum := sum, shadow := kept } } .ok
              (le16n (v.position + n) ++ records.flatMap le32)
          else
            State.responded { s with
              save := { v with status := .done, position := v.size, sum := sum, shadow := [] }
              attention := s.attention ||| 0b01000#5 } .ok (le16n v.size ++ (records ++ [-sum]).flatMap le32))))
  ∧ (∀ (s : State) (k : Nat),
      let g := s.geometry
      (∀ w : Word, k < 16 → s.save.header[k]? = some w → s.saveWord k = w)
      ∧ (∀ (l : Nat) (f : LogicalFields), k = 16 + l → l < g.logicalCount →
          (ShadowEntry.logical l f ∈ s.save.shadow → (s.save.shadow.Pairwise fun a b => a.sameRecord b = false) → s.saveWord k = f.word)
          ∧ ∀ r : LogicalRecord, (∀ e ∈ s.save.shadow, e.isLogical l = false) → s.logical? l = some r → s.saveWord k = r.toLogicalFields.word)
      ∧ ∀ (d b : Nat) (f : PhysFields), k = 16 + g.logicalCount + d * g.blocksPerDie + b → b < g.blocksPerDie →
          (ShadowEntry.physical d b f ∈ s.save.shadow → (s.save.shadow.Pairwise fun a b => a.sameRecord b = false) → s.saveWord k = f.word)
          ∧ ∀ r : PhysRecord, (∀ e ∈ s.save.shadow, e.isPhysical d b = false) → s.phys? d b = some r → s.saveWord k = r.toPhysFields.word)

/-- R168, R169: a record handed while a save runs: one already delivered or already shadowed does nothing; one not yet delivered gets an
entry while fewer than 128 are held, and with 128 held ends the save, SHADOW_FULL, every entry freed, the position kept, OP_DONE raised. With
no save running nothing is done. -/
def Obligations.HandingARecord : Prop :=
  ∀ (e : ShadowEntry) (s : State),
    s.hand e =
      if s.save.status = .running ∧ s.save.position ≤ e.index s.geometry ∧ ∀ x ∈ s.save.shadow, e.sameRecord x = false then
        if s.save.shadow.length < 128 then { s with save := { s.save with shadow := s.save.shadow ++ [e] } }
        else { s with
          save := { s.save with status := .shadowFull, shadow := [] }
          attention := s.attention ||| 0b01000#5 }
      else s

/-- R164, R167, R171: while a save runs on through a step, every word it has not delivered stays what it was: the image delivered is the
table as it stood at SAVE_BEGIN. Its sum grows by the words the step delivered, and by nothing else. -/
def Obligations.SaveDeliversTheTableAtSaveBegin : Prop :=
  ∀ s t : State, s.ControlKept → step s = .next t → s.save.status = .running → t.save.status = .running →
    t.save.header = s.save.header ∧ t.save.size = s.save.size
    ∧ (∀ k : Nat, t.save.position ≤ k → k + 1 < s.save.size → t.saveWord k = s.saveWord k)
    ∧ s.save.position ≤ t.save.position
    ∧ t.save.sum = s.save.sum
      + wordSum ((List.range (t.save.position - s.save.position)).map fun i => s.saveWord (s.save.position + i))

/-- R22: a step that leaves the generation of a table as it was leaves the recorded fields of every record as they were. -/
def Obligations.RecordsChangeOnlyWithTheGeneration : Prop :=
  ∀ s t : State, s.ControlKept → step s = .next t → s.table.isSome = true → t.table.isSome = true → t.generation = s.generation →
    (∀ l : Nat, (t.logical? l).map (·.toLogicalFields) = (s.logical? l).map (·.toLogicalFields))
    ∧ ∀ d b : Nat, (t.phys? d b).map (·.toPhysFields) = (s.phys? d b).map (·.toPhysFields)

/-! ### Frames, HELLO and port loss (chapter 6) -/

/-- R118, R125: a frame that arrives. In DISABLED it is counted DISCARDED_WHILE_DOWN. Otherwise one that fails its check is counted
FRAME_ERROR, and in UP a credit is owed, with a CREDIT frame when the queue is empty. One that passes is a HELLO when its kind is 01; of
another kind it is counted DISCARDED_WHILE_DOWN in DOWN, and in UP it joins the FIFO, or is counted OVERRUN when 8 frames stand there.
The counters saturate at 65535. R124, R128, R103: the head frame leaves carrying the credits owed, which become 0, with its check word;
one pending notice, the MAP_RESET notice first, takes the freed place; a consideration is owed. That nothing leaves an empty queue (log entry
3), that the lane keeps the words last sent (log entry 7) and that a frame of more than 18 payload words is treated alike (log entry 6) are
the model's choices. -/
def Obligations.FramesArriveAndLeave : Prop :=
  (∀ (p : PortId) (f : Frame) (s : State),
    let x := s.ports[p]
    let port (y : Port) : Host.Outcome State Fault Refusal := .next { s with ports := s.ports.set p y }
    (x.link = .disabled → exec (.frameArrival p f) s = port { x with discards := min (x.discards + 1) 65535 })
    ∧ (framePasses f = true ↔ f.header + wordSum f.payload + f.check = 0#32)
    ∧ (x.link = .down → framePasses f = false → exec (.frameArrival p f) s = port { x with frameErrors := min (x.frameErrors + 1) 65535 })
    ∧ (x.link = .up → framePasses f = false → exec (.frameArrival p f) s = port { x with
        frameErrors := min (x.frameErrors + 1) 65535
        credits := min (x.credits + 1) 8
        outgoing := if x.outgoing = [] then [⟨0x84#8, 0#8, []⟩] else x.outgoing })
    ∧ (x.link ≠ .disabled → framePasses f = true → f.kind = 0x01#8 → exec (.frameArrival p f) s = exec (.hello p f.tag) s)
    ∧ (x.link = .down → framePasses f = true → f.kind ≠ 0x01#8 →
        exec (.frameArrival p f) s = port { x with discards := min (x.discards + 1) 65535 })
    ∧ (x.link = .up → framePasses f = true → f.kind ≠ 0x01#8 →
        exec (.frameArrival p f) s = port (if x.fifo.length < 8 then { x with fifo := x.fifo ++ [f] }
          else { x with overruns := min (x.overruns + 1) 65535 })))
  ∧ (∀ (p : PortId) (s : State),
      let x := s.ports[p]
      (x.outgoing = [] → exec (.frameLeave p) s = .next s)
      ∧ ∀ (f : OutFrame) (rest : List OutFrame), x.outgoing = f :: rest →
          let header : Word := 0#4 ++ BitVec.ofNat 4 x.credits ++ f.tag ++ 0#3 ++ BitVec.ofNat 5 f.payload.length ++ f.kind
          exec (.frameLeave p) s = .next { s with ports := s.ports.set p { x with
            outgoing := rest ++ (if x.mapResetFlag then [⟨0x83#8, 0#8, [0x00FFFF03#32]⟩] else (x.notices.head?.map LeaseNotice.frame).toList)
            mapResetFlag := false
            notices := if x.mapResetFlag then x.notices else x.notices.tail
            txLane := header :: f.payload ++ [-(header + wordSum f.payload)]
            credits := 0
            issueDue := true } })

/-- R71, R110, R113, R120, R121, R123, R133: an UP port is lost by link loss or the timeout of one of its orders (DOWN, PORT_FAULT raised),
by a HELLO (it comes UP again under the next epoch in the same change) or by PORT_CONTROL DISABLE (DISABLED). Its FIFO, outgoing queue,
pending notices, credits and orders are gone, its counters, tag counter and last erase die kept; every lease it held has ended, and the
leases of the other ports and those ports' queues and orders stay. A drain check is owed while DRAINING. A HELLO and PORT_CONTROL DISABLE do
not raise PORT_FAULT. -/
def Obligations.PortLossEndsWhatThePortHolds : Prop :=
  ∀ (p : PortId) (tag : Byte) (s : State), s.ports[p].link = .up →
    let x := s.ports[p]
    let lost (t : State) (y : Port) : Prop :=
      t.ports[p] = y
      ∧ (∀ q : PortId, q ≠ p → t.ports[q] = { s.ports[q] with issueDue := t.ports[q].issueDue })
      ∧ (∀ (id : Nat) (l : Lease), s.lease? id = some l → t.lease? id = if l.port = p then none else some l)
      ∧ (∀ id : Nat, s.lease? id = none → t.lease? id = none)
      ∧ t = { s with
        table := t.table
        generation := t.generation
        leases := t.leases
        relocations := t.relocations
        waiting := t.waiting
        evaluationsOwed := t.evaluationsOwed
        ports := t.ports
        save := t.save
        attention := t.attention
        drainCheckDue := s.drainCheckDue || s.tableState == .draining }
    let emptied (t : State) (cause : LossCause) (link : LinkState) : Port := { x with
      link := link
      lossCause := cause
      credits := 0
      fifo := []
      outgoing := []
      notices := []
      mapResetFlag := false
      orders := []
      issueDue := t.ports[p].issueDue }
    (∃ t : State, exec (.linkLoss p) s = .next t ∧ lost t (emptied t .linkLoss .down) ∧ Cause.portFault.isIn t.attention = true)
    ∧ (x.hasOrder tag = true → ∃ t : State, exec (.orderTimeout p tag) s = .next t ∧ lost t (emptied t .orderTimeout .down)
        ∧ Cause.portFault.isIn t.attention = true)
    ∧ (∃ t : State, exec (.hello p tag) s = .next t ∧ lost t { emptied t .hello .up with
        epoch := x.epoch + 1#8
        groupSize := 0
        credits := 8
        outgoing := [⟨0x81#8, tag, [0x00FF0100#32, 0#16 ++ s.tableState.code ++ (x.epoch + 1#8)]⟩]
        issueDue := true } ∧ Cause.portFault.isIn t.attention = Cause.portFault.isIn s.attention)
    ∧ (s.Ready → ∃ t : State, exec (.portDisable (byte p.val)) s = .next (t.responded .ok [0x00#8])
        ∧ lost t (emptied t .disabled .disabled) ∧ Cause.portFault.isIn t.attention = Cause.portFault.isIn s.attention)

/-- R35, R49, R50, R71, R94, R113: what the loss of a port, by any of its four causes, makes of the records. The block of an ERASE order
returns to STALE and joins the erase queue, or, marked, retires with its mark's cause. The destination of a write lease becomes STALE and
joins it, and its logical block's link is cleared, its mapping kept. A COPY order's relocation is freed, a trigger for its die: its
destination joins the erase queue as STALE, its logical block's link is cleared, and an active RESCUE's logical block is in the rescue queue
again where there is room. Where the records are in step (`RecordsKept`), each block loses its readers of the port's READ leases; a STALE
one that loses its last joins the erase queue, or retires with its mark's cause; the blocks no lease or order of the port names are as they
were; and the generation steps once when a write lease, an order or a retirement was among what ended, and not otherwise. -/
def Obligations.PortLossReturnsTheBlocks : Prop :=
  ∀ (p : PortId) (tag : Byte) (s : State), s.ports[p].link = .up →
    (∀ (d : Nat) (r : Relocation), s.relocation? d = some r → s.home r.logical = d) →
    let staled (t : State) (d b : Nat) (y : PhysRecord) : Prop :=
      t.phys? d b = some { y with state := .stale, owner := none } ∧ ∃ z, t.die? d = some z ∧ b ∈ z.eraseQueue
    let retired (t : State) (d b : Nat) (y : PhysRecord) (m : WeakMark) : Prop :=
      t.phys? d b = some { y with state := .retired, cause := some (if m = .host then .host else .weak), owner := none, readers := 0 }
      ∧ ∃ z, t.die? d = some z ∧ b ∉ z.eraseQueue
    let named : Nat → Nat → Nat := s.naming fun x => x.port == p
    let leaves (d b : Nat) (y : PhysRecord) : Prop := y.state = .stale ∧ y.readers ≠ 0 ∧ named d b = y.readers
    let writes (d b : Nat) : Prop := ∃ (id : Nat) (x : Lease) (l attempt : Nat), s.lease? id = some x ∧ x.port = p
      ∧ x.body = .write l b attempt ∧ s.home l = d
    let orders (d b : Nat) : Prop := ∃ o ∈ s.ports[p].orders, o.die = d ∧ (o.work = .erase b ∨ ∃ a, o.work = .copy a b)
    let steps : Prop := (∃ d b, writes d b) ∨ s.ports[p].orders ≠ []
      ∨ ∃ (d b : Nat) (y : PhysRecord), s.phys? d b = some y ∧ leaves d b y ∧ y.weak ≠ none
    let returned (t : State) : Prop :=
      (∀ (o : Order) (b : Nat) (y : PhysRecord), o ∈ s.ports[p].orders → o.work = .erase b → s.phys? o.die b = some y → y.readers = 0 →
          (y.weak = none → staled t o.die b y) ∧ ∀ m : WeakMark, y.weak = some m → retired t o.die b y m)
      ∧ (∀ (id : Nat) (l : Lease) (k b attempt : Nat) (y : PhysRecord) (r : LogicalRecord), s.lease? id = some l → l.port = p →
          l.body = .write k b attempt → s.phys? (s.home k) b = some y → y.readers = 0 → y.weak = none → s.logical? k = some r →
          staled t (s.home k) b y ∧ ∃ r', t.logical? k = some r' ∧ r'.toLogicalFields = r.toLogicalFields ∧ r'.writeLease = none)
      ∧ (∀ (o : Order) (a b : Nat) (x : Relocation) (y : PhysRecord) (r : LogicalRecord), o ∈ s.ports[p].orders → o.work = .copy a b →
          s.relocation? o.die = some x → x.state = .copying o.tag o.epoch ∨ x.state = .cancelled o.tag o.epoch →
          s.phys? o.die x.destination = some y → y.readers = 0 → y.weak = none → s.logical? x.logical = some r →
          t.relocation? o.die = none ∧ staled t o.die x.destination y
          ∧ (∃ r', t.logical? x.logical = some r' ∧ r'.toLogicalFields = r.toLogicalFields ∧ r'.relocating = false)
          ∧ (o.die < 8 → (s.evaluationsOwed[o.die]?).getD 0 < (t.evaluationsOwed[o.die]?).getD 0)
          ∧ (x.kind = .rescue → x.active = true → (s.rescue o.die).length < 16 → x.logical ∈ t.rescue o.die))
      ∧ (t.generation = s.generation ∨ t.generation = s.generation + 1#32)
      ∧ (s.PortsKept → s.ControlKept → s.RecordsKept →
          (∀ (d b : Nat) (y : PhysRecord), s.phys? d b = some y →
            (¬leaves d b y → ¬writes d b → ¬orders d b → t.phys? d b = some { y with readers := y.readers - named d b })
            ∧ (leaves d b y → y.weak = none → staled t d b { y with readers := 0 })
            ∧ ∀ m : WeakMark, leaves d b y → y.weak = some m → retired t d b y m)
          ∧ (steps → t.generation = s.generation + 1#32) ∧ (¬steps → t.generation = s.generation))
    (∃ t : State, exec (.linkLoss p) s = .next t ∧ returned t)
    ∧ (s.ports[p].hasOrder tag = true → ∃ t : State, exec (.orderTimeout p tag) s = .next t ∧ returned t)
    ∧ (∃ t : State, exec (.hello p tag) s = .next t ∧ returned t)
    ∧ (s.Ready → ∃ t : State, exec (.portDisable (byte p.val)) s = .next (t.responded .ok [0x00#8]) ∧ returned t)

/-! ### Requests: forms, groups and lease matching (R47, R55, R67, R188) -/

/-- R55: SET_GROUP of a size from 1 to 16, in every table state, becomes the port's GROUP_SIZE and is answered OK with the size; another size
is answered BAD_ARG and keeps it. R188: a frame of unaccepted form is answered BAD_ARG with the kind code as received and lease id FF, and
changes nothing else; its form is unaccepted when its kind code is not 02 to 0A, or its length field or its payload is not one word. -/
def Obligations.SetGroupAndUnknownRequests : Prop :=
  (∀ (p : PortId) (f : Frame) (s : State), s.Heads p f (some .setGroup) →
    exec (.setGroup p) s = .next (
      if 1 ≤ f.byte0.toNat ∧ f.byte0.toNat ≤ 16 then
        let t := s.answered p [answerFrame f.tag .ok 0x02#8 0xFF#8 [0#24 ++ f.byte0]]
        { t with ports := t.ports.set p { t.ports[p] with groupSize := f.byte0.toNat } }
      else s.answered p [answerFrame f.tag .badArg 0x02#8 0xFF#8 []]))
  ∧ (∀ (p : PortId) (f : Frame) (s : State), s.Heads p f none →
    exec (.unknownRequest p) s = .next (s.answered p [⟨0x81#8, f.tag, [0x00FF#16 ++ f.kind ++ 0x0A#8]⟩]))
  ∧ ∀ f : Frame, f.request = none ↔
      f.kind.toNat < 2 ∨ 10 < f.kind.toNat ∨ (f.header.extractLsb' 8 5).toNat ≠ f.payload.length ∨ f.payload.length ≠ 1

/-- R47, R63: COMMIT, RELEASE and RENEW of a lease id above 63 are answered BAD_ARG; of an id whose entry is free, or holds a lease of
another port or tag, UNKNOWN_LEASE. A COMMIT of a READ lease, or with a result other than 00 and 01, is answered BAD_ARG. None changes
anything. That these answers carry the request's lease id is the model's reading (log entry 8). -/
def Obligations.LeaseRequestsAreMatched : Prop :=
  ∀ (p : PortId) (f : Frame) (s : State),
    let id := f.byte0.toNat
    let refused (status : AnswerStatus) (kind : Byte) : Host.Outcome State Fault Refusal :=
      .next (s.answered p [answerFrame f.tag status kind f.byte0 []])
    let each (status : AnswerStatus) : Prop :=
      (s.Heads p f (some .commit) → exec (.commit p) s = refused status 0x05#8)
      ∧ (s.Heads p f (some .release) → exec (.release p) s = refused status 0x06#8)
      ∧ (s.Heads p f (some .renew) → exec (.renew p) s = refused status 0x07#8)
    (64 ≤ id → each .badArg)
    ∧ (id < 64 → (∀ l : Lease, s.lease? id = some l → l.port ≠ p ∨ l.tag ≠ f.tag) → each .unknownLease)
    ∧ ∀ l : Lease, id < 64 → s.lease? id = some l → l.port = p → l.tag = f.tag → s.Heads p f (some .commit) →
        ((∃ entries, l.body = .read entries) → exec (.commit p) s = refused .badArg 0x05#8)
        ∧ (∀ k b a : Nat, l.body = .write k b a → s.logical? k ≠ none → 2 ≤ f.byte1.toNat →
            exec (.commit p) s = refused .badArg 0x05#8)

/-- R67, R52: RENEW of a matched lease, of either kind, sets its remaining time to LEASE_LIMIT, or takes its timer when LEASE_LIMIT is 0, and
answers the new remaining time, 0 for no timer. Nothing else changes. -/
def Obligations.RenewRestartsTheTimer : Prop :=
  ∀ (p : PortId) (f : Frame) (l : Lease) (s : State), s.Heads p f (some .renew) → f.byte0.toNat < 64 →
    s.lease? f.byte0.toNat = some l → l.port = p → l.tag = f.tag →
    exec (.renew p) s = .next
      { s.answered p [answerFrame f.tag .ok 0x07#8 f.byte0 [BitVec.ofNat 32 (s.params.leaseLimit % 65536)]] with
        leases := s.leases.setIfInBounds f.byte0.toNat
          (some { l with expiry := if s.params.leaseLimit = 0 then none else some s.params.leaseLimit }) }

/-! ### OPEN_READ and OPEN_WRITE (R56 to R62) -/

/-- R56: OPEN_READ of n from L is answered by its first failing check: DRAINING or OFFLINE when the table is not ONLINE; BAD_ARG when n is
not 1 to 16 or the run passes LOGICAL_COUNT; NO_GROUP when n is above 1 and GROUP_SIZE is 0; LEASE_FULL, QUOTA (00) or TABLE (01); UNMAPPED,
with L and its version. No lease is made and nothing else changes. -/
def Obligations.OpenReadChecksInOrder : Prop :=
  ∀ (p : PortId) (f : Frame) (s : State), s.Heads p f (some .openRead) →
    let l := f.low.toNat
    let n := f.byte2.toNat
    let refused (status : AnswerStatus) (words : List Word) : Host.Outcome State Fault Refusal :=
      .next (s.answered p [answerFrame f.tag status 0x03#8 0xFF#8 words])
    let range : Prop := 1 ≤ n ∧ n ≤ 16 ∧ l + n ≤ s.geometry.logicalCount
    let group : Prop := n = 1 ∨ s.ports[p].groupSize ≠ 0
    (s.tableState = .draining → exec (.openRead p) s = refused .draining [])
    ∧ (s.tableState ≠ .online → s.tableState ≠ .draining → exec (.openRead p) s = refused .offline [])
    ∧ (s.tableState = .online →
        (¬range → exec (.openRead p) s = refused .badArg [])
        ∧ (range → ¬group → exec (.openRead p) s = refused .noGroup [])
        ∧ (range → group → s.params.leaseQuota[p] ≤ s.leasesOf p → exec (.openRead p) s = refused .leaseFull [0#32])
        ∧ (range → group → s.leasesOf p < s.params.leaseQuota[p] → (∀ id < 64, s.lease? id ≠ none) →
            exec (.openRead p) s = refused .leaseFull [1#32])
        ∧ ∀ (id : Nat) (r : LogicalRecord), range → group → s.Grants p id → s.logical? l = some r → r.block = none →
            exec (.openRead p) s = refused .unmapped [r.version ++ f.low])

/-- R57, R58: OPEN_READ that passes its checks covers the k logical blocks from L up to the first UNMAPPED one, or all n. It makes a READ
lease with the lowest free id and one entry for each; each block named gains a reader for each entry naming it; and the answer is k divided
by G, rounded up, frames of G entries (G is GROUP_SIZE, 1 for 0), MORE on all but the last, which is OK, or PARTIAL with L+k and n-k. No
recorded field, list or count changes, and the generation stays. -/
def Obligations.OpenReadGrantsALease : Prop :=
  ∀ (p : PortId) (f : Frame) (s : State) (id k : Nat) (rec : Nat → LogicalRecord) (block : Nat → Nat),
    s.Heads p f (some .openRead) → s.tableState = .online → s.Grants p id →
    let l := f.low.toNat
    let n := f.byte2.toNat
    1 ≤ n → n ≤ 16 → l + n ≤ s.geometry.logicalCount → n = 1 ∨ s.ports[p].groupSize ≠ 0 →
    1 ≤ k → k ≤ n → (∀ i < k, s.logical? (l + i) = some (rec i) ∧ (rec i).block = some (block i)) →
    (k < n → ∃ r, s.logical? (l + k) = some r ∧ r.block = none) →
    let group := max s.ports[p].groupSize 1
    let frames := (k + group - 1) / group
    let word (i : Nat) : Word := 0#2 ++ (rec i).risk.code ++ BitVec.ofNat 3 (s.home (l + i)) ++ BitVec.ofNat 10 (block i) ++ (rec i).version
    let frame (j : Nat) : OutFrame :=
      let count := min group (k - j * group)
      answerFrame f.tag (if j + 1 < frames then .more else if k = n then .ok else .partialRun) 0x03#8 (byte id)
        ((0#8 ++ byte count ++ BitVec.ofNat 16 (l + j * group)) :: (List.range count).map (fun i => word (j * group + i))
          ++ if j + 1 = frames ∧ k < n then [0#8 ++ byte (n - k) ++ BitVec.ofNat 16 (l + k)] else [])
    ∃ t : State,
      exec (.openRead p) s = .next { s.answered p ((List.range frames).map frame) with
        table := t.table
        leases := s.leases.setIfInBounds id
          (some ⟨p, f.tag, .read ((List.range k).map fun i => ⟨l + i, s.home (l + i), block i, (rec i).version⟩), s.newExpiry⟩) }
      ∧ t.geometry = s.geometry ∧ (∀ i : Nat, t.logical? i = s.logical? i)
      ∧ (∀ d : Nat, (t.die? d).map (fun x => { x with blocks := [] }) = (s.die? d).map fun x => { x with blocks := [] })
      ∧ ∀ d b : Nat, t.phys? d b = (s.phys? d b).map fun y =>
          { y with readers := y.readers + (List.range k).countP fun i => s.home (l + i) == d && block i == b }

/-- R60, R61, R30: OPEN_WRITE of L is answered by its first failing check: DRAINING or OFFLINE when the table is not ONLINE; BAD_ARG when L is
LOGICAL_COUNT or more; LOCKED, with the port that holds L's write lease; LEASE_FULL, QUOTA or TABLE; NO_SPARE or WAIT_SPARE by the spare check
on the home die, unless L has a relocation in WAIT_SLOT. Nothing else changes. -/
def Obligations.OpenWriteChecksInOrder : Prop :=
  ∀ (p : PortId) (f : Frame) (s : State), s.Heads p f (some .openWrite) →
    let l := f.low.toNat
    let refused (status : AnswerStatus) (words : List Word) : Host.Outcome State Fault Refusal :=
      .next (s.answered p [answerFrame f.tag status 0x04#8 0xFF#8 words])
    (s.tableState = .draining → exec (.openWrite p) s = refused .draining [])
    ∧ (s.tableState ≠ .online → s.tableState ≠ .draining → exec (.openWrite p) s = refused .offline [])
    ∧ (s.tableState = .online → s.logical? l = none → exec (.openWrite p) s = refused .badArg [])
    ∧ ∀ r : LogicalRecord, s.tableState = .online → s.logical? l = some r →
        (∀ (id : Nat) (x : Lease), r.writeLease = some id → s.lease? id = some x →
          exec (.openWrite p) s = refused .locked [BitVec.ofNat 32 x.port.val])
        ∧ (r.writeLease = none → s.params.leaseQuota[p] ≤ s.leasesOf p → exec (.openWrite p) s = refused .leaseFull [0#32])
        ∧ (r.writeLease = none → s.leasesOf p < s.params.leaseQuota[p] → (∀ id < 64, s.lease? id ≠ none) →
            exec (.openWrite p) s = refused .leaseFull [1#32])
        ∧ ∀ (id : Nat) (x : Die), r.writeLease = none → s.Grants p id → s.die? (s.home l) = some x →
            (∀ y : Relocation, s.activeRelocation l = some y → y.state ≠ .waitSlot) →
            (r.block = none → x.health = .exhausted → exec (.openWrite p) s = refused .noSpare [])
            ∧ (r.block ≠ none ∨ x.health ≠ .exhausted → x.spares = [] →
                exec (.openWrite p) s = refused
                  (if ∃ y ∈ x.blocks, y.state = .stale ∨ y.state = .erasing then .waitSpare else .noSpare) [])

/-- R62: OPEN_WRITE that passes its checks, with no relocation of L active, makes a WRITE lease with the lowest free id on the front of
the home die's spare list, which becomes ALLOCATED; L's write lease link is set, its mapping stays; the generation steps once; the
answer carries the lease id, the block, attempt 1 and L's version. R62, R92, R28, R75: OPEN_WRITE of an L with an active relocation
cancels it first. One in WAIT_SLOT is freed, its destination returns to its place in the spare list and the write takes the front of
that list; one in COPYING becomes CANCELLED and keeps its destination. L's relocation link is cleared, its write lease link set, and a
RESCUE's logical block goes to the head of the rescue queue where it has no entry and there is room. The generation steps once. -/
def Obligations.OpenWriteGrants : Prop :=
  (∀ (p : PortId) (f : Frame) (s : State) (id b : Nat) (rest : List Nat) (t : Table) (r : LogicalRecord) (x : Die) (y : PhysRecord),
    s.Heads p f (some .openWrite) → s.tableState = .online → s.Grants p id →
    let l := f.low.toNat
    let d := t.geometry.home l
    s.table = some t → t.logical[l]? = some r → r.writeLease = none → s.activeRelocation l = none → t.dies[d]? = some x →
    (r.block = none → x.health ≠ .exhausted) → x.spares = b :: rest → x.blocks[b]? = some y → y.state = .spare →
    ∃ (v : SaveSweep) (a : CauseSet), s.Saves v a ∧
      exec (.openWrite p) s = .next
        { s.answered p [answerFrame f.tag .ok 0x04#8 (byte id) [1#2 ++ 0#1 ++ BitVec.ofNat 3 d ++ BitVec.ofNat 10 b ++ r.version]] with
          leases := s.leases.setIfInBounds id (some ⟨p, f.tag, .write l b 1, s.newExpiry⟩)
          table := some (t.put l { r with writeLease := some id } d
            { x with blocks := x.blocks.set b { y with state := .allocated }, spares := rest })
          generation := s.generation + 1#32
          save := v
          attention := a })
  ∧ (∀ (p : PortId) (f : Frame) (s : State) (id b : Nat) (r : LogicalRecord) (x : Die) (m : Relocation) (c y : PhysRecord),
      s.Heads p f (some .openWrite) → s.tableState = .online → s.Grants p id →
      let l := f.low.toNat
      let d := s.home l
      d < 8 → s.logical? l = some r → r.writeLease = none → r.block ≠ none → s.die? d = some x → s.activeRelocation l = some m →
      x.blocks[m.destination]? = some c → c.state = .allocated → x.blocks[b]? = some y →
      let returned := insertSpare x.eraseCount m.destination x.spares
      (if m.state = .waitSlot then returned.head? = some b else x.spares.head? = some b ∧ y.state = .spare) →
      ∃ t : State, exec (.openWrite p) s = .next t
        ∧ t.ports = (s.answered p [answerFrame f.tag .ok 0x04#8 (byte id)
            [1#2 ++ 0#1 ++ BitVec.ofNat 3 d ++ BitVec.ofNat 10 b ++ r.version]]).ports
        ∧ t.leases = s.leases.setIfInBounds id (some ⟨p, f.tag, .write l b 1, s.newExpiry⟩)
        ∧ t.generation = s.generation + 1#32 ∧ t.logical? l = some { r with relocating := false, writeLease := some id }
        ∧ s.OtherLogical t l ∧ s.OtherBlocks t d [m.destination, b] ∧ t.evaluationsOwed = s.evaluationsOwed
        ∧ (t.phys? d b).map (·.state) = some .allocated
        ∧ t.rescue d = (if m.kind = .rescue ∧ l ∉ x.rescue ∧ x.rescue.length < 16 then l :: x.rescue else x.rescue)
        ∧ (m.state = .waitSlot → t.relocation? d = none ∧ t.waiting = s.waiting.filter (· != d) ∧ t.spares d = returned.tail
            ∧ (m.destination ≠ b → (t.phys? d m.destination).map (·.state) = some .spare))
        ∧ ∀ tag epoch : Byte, m.state = .copying tag epoch →
            t.relocation? d = some { m with state := .cancelled tag epoch } ∧ t.waiting = s.waiting ∧ t.spares d = x.spares.tail
            ∧ (m.destination ≠ b → t.phys? d m.destination = some c))

/-! ### COMMIT, lease ends and DISCARD (R49, R50, R53, R64 to R66, R68, R69) -/

/-- R64, R38, R16: COMMIT OK maps L to the destination under the next version with risk NONE, makes the block MAPPED with owner L, sends L's
previous block, if any, to STALE and disposes of it, removes L's rescue entry, and frees the lease, a trigger for the die; the generation
steps once and the answer carries block and version. For an UNMAPPED L on an EXHAUSTED die it is answered NO_SPARE: the destination goes to
STALE and joins the erase queue and the lease is freed. -/
def Obligations.CommitMapsTheDestination : Prop :=
  ∀ (p : PortId) (f : Frame) (s : State) (lease : Lease) (l b attempt : Nat) (t : Table) (r : LogicalRecord) (x : Die) (y : PhysRecord),
    s.Heads p f (some .commit) → f.byte0.toNat < 64 → s.lease? f.byte0.toNat = some lease → lease.port = p → lease.tag = f.tag →
    lease.body = .write l b attempt → f.byte1 = 0x00#8 → s.table = some t → t.logical[l]? = some r →
    let d := t.geometry.home l
    let w := t.geometry.classWidth
    let warn := s.params.spareWarn
    t.dies[d]? = some x → x.blocks[b]? = some y → y.state = .allocated → y.owner = none → y.readers = 0 → y.weak = none →
    let version := r.version + 1#16
    let done (v : SaveSweep) (a : CauseSet) (answer : OutFrame) (l' : LogicalRecord) (x' : Die) : State :=
      State.triggerDie { s.answered p [answer] with
        leases := s.leases.setIfInBounds f.byte0.toNat none
        table := some (t.put l { l' with writeLease := none } d x')
        generation := s.generation + 1#32
        drainCheckDue := s.drainCheckDue || s.tableState == .draining
        save := v
        attention := a } d
    let ok := answerFrame f.tag .ok 0x05#8 f.byte0 [0#3 ++ BitVec.ofNat 3 d ++ BitVec.ofNat 10 b ++ version]
    let mapped : Die := x.writeBlock w b y { y with state := .mapped, owner := some l }
    ∃ (v : SaveSweep) (a : CauseSet), s.Saves v a
    ∧ (r.block = none → x.health = .exhausted →
        exec (.commit p) s = .next ((done v a (answerFrame f.tag .noSpare 0x05#8 f.byte0 []) r (x.withStale w warn b y)).considerOwner d))
    ∧ (r.block = none → x.health ≠ .exhausted →
        exec (.commit p) s = .next (done v a ok { r with block := some b, version := version, risk := .none }
          { mapped with rescue := x.rescue.filter (· != l) }))
    ∧ ∀ (o : Nat) (z : PhysRecord), r.block = some o → o ≠ b → x.blocks[o]? = some z → z.state = .mapped →
        let x' := mapped.withStale w warn o z
        exec (.commit p) s = .next ((done v a ok { r with block := some b, version := version, risk := .none }
          { x' with rescue := x.rescue.filter (· != l) }).disposed d z x.health x'.health)

/-- R65, R36, R30: COMMIT PROGRAM_FAIL retires the destination with cause PROGRAM_FAIL. At attempt 1 or 2, where the die's spare list then
has a front and L is MAPPED or the die not EXHAUSTED, the lease takes it as its new destination with the next attempt and a fresh timer,
answered NEW_DEST; otherwise the lease is freed, a trigger for the die, answered WRITE_FAILED with the attempts made. The generation steps
once. -/
def Obligations.CommitFailureRetiresTheDestination : Prop :=
  ∀ (p : PortId) (f : Frame) (s : State) (lease : Lease) (l b attempt : Nat) (t : Table) (r : LogicalRecord) (x : Die) (y : PhysRecord),
    s.Heads p f (some .commit) → f.byte0.toNat < 64 → s.lease? f.byte0.toNat = some lease → lease.port = p → lease.tag = f.tag →
    lease.body = .write l b attempt → f.byte1 = 0x01#8 → s.table = some t → t.logical[l]? = some r →
    let d := t.geometry.home l
    t.dies[d]? = some x → x.blocks[b]? = some y → y.state = .allocated →
    let x' := x.withRetired t.geometry.classWidth s.params.spareWarn b y .programFail y.eraseCount
    let base (v : SaveSweep) (a : CauseSet) (answer : OutFrame) : State :=
      { s.answered p [answer] with generation := s.generation + 1#32, save := v, attention := a }
    ∃ (v : SaveSweep) (a : CauseSet), s.Saves v a
    ∧ (∀ (b' : Nat) (rest : List Nat) (y' : PhysRecord), attempt < 3 → r.block ≠ none ∨ x'.health ≠ .exhausted →
        x'.spares = b' :: rest → x'.blocks[b']? = some y' → y'.state = .spare →
        let x'' : Die := { x' with blocks := x'.blocks.set b' { y' with state := .allocated }, spares := rest }
        exec (.commit p) s = .next (State.raiseIf
          { base v a (answerFrame f.tag .newDest 0x05#8 f.byte0
              [BitVec.ofNat 2 (attempt + 1) ++ 0#1 ++ BitVec.ofNat 3 d ++ BitVec.ofNat 10 b' ++ 0#16]) with
            leases := s.leases.setIfInBounds f.byte0.toNat
              (some { lease with body := .write l b' (attempt + 1), expiry := s.newExpiry })
            table := some { t with dies := t.dies.set d x'' } }
          (x'.health != x.health) .dieHealth))
    ∧ (3 ≤ attempt ∨ (r.block = none ∧ x'.health = .exhausted) ∨ x'.spares = [] →
        exec (.commit p) s = .next ((State.raiseIf
          { base v a (answerFrame f.tag .writeFailed 0x05#8 f.byte0 [0#24 ++ byte attempt]) with
            leases := s.leases.setIfInBounds f.byte0.toNat none
            table := some (t.put l { r with writeLease := none } d x')
            drainCheckDue := s.drainCheckDue || s.tableState == .draining }
          (x'.health != x.health) .dieHealth).triggerDie d))

/-- R50, R53, R66, R51: a WRITE lease ends by RELEASE (answered OK) or expiry (a LEASE_EXPIRED notice placed, or pended when the queue
is full): its destination goes to STALE and joins the erase queue, L's write lease link is cleared and its mapping kept, the entry is
freed, a trigger for the die; the generation steps once. R49, R53, R66: a READ lease ends by RELEASE or expiry: each block loses a
reader for each entry naming it; one that is STALE and whose readers reach 0 joins the erase queue, or retires with its mark's cause;
the logical records stay. RELEASE is answered OK; expiry places or pends a LEASE_EXPIRED notice. Where no block has fewer readers than the
lease has entries naming it (R10): the generation steps once when a block retired and not otherwise; a drain check is owed while DRAINING;
the blocks that join their erase queue do so in the order of the entries, and make the port that owns the die be considered; each retirement
counts in its die's retired count, reserve, wear histogram and health; and nothing else changes. -/
def Obligations.LeasesEnd : Prop :=
  (∀ (p : PortId) (s : State) (id : Fin 64) (lease : Lease) (l b attempt : Nat) (t : Table) (r : LogicalRecord) (x : Die) (y : PhysRecord),
    s.lease? id = some lease → lease.port = p → lease.body = .write l b attempt → s.table = some t → t.logical[l]? = some r →
    let d := t.geometry.home l
    t.dies[d]? = some x → x.blocks[b]? = some y → y.state = .allocated → y.readers = 0 → y.weak = none →
    let ended (s : State) (v : SaveSweep) (a : CauseSet) : State :=
      (State.triggerDie { s with
        leases := s.leases.setIfInBounds id none
        table := some (t.put l { r with writeLease := none } d (x.withStale t.geometry.classWidth s.params.spareWarn b y))
        generation := s.generation + 1#32
        drainCheckDue := s.drainCheckDue || s.tableState == .draining
        save := v
        attention := a } d).considerOwner d
    ∃ (v : SaveSweep) (a : CauseSet), s.Saves v a
    ∧ (∀ f : Frame, s.Heads p f (some .release) → f.byte0.toNat = id → f.tag = lease.tag →
        exec (.release p) s = .next (ended (s.answered p [answerFrame f.tag .ok 0x06#8 f.byte0 []]) v a))
    ∧ (lease.expiry ≠ none →
        let q := s.ports[p]
        let q' : Port :=
          if q.outgoing.length < 32 then { q with outgoing := q.outgoing ++ [⟨0x83#8, lease.tag, [0x0001#16 ++ byte id.val ++ 0x01#8]⟩] }
          else { q with notices := q.notices ++ [⟨.expired, id, true, lease.tag⟩] }
        exec (.leaseExpiry id) s = .next (ended { s with ports := s.ports.set p q' } v a)))
  ∧ (∀ (p : PortId) (s : State) (id : Fin 64) (lease : Lease) (entries : List ReadEntry),
      s.lease? id = some lease → lease.port = p → lease.body = .read entries →
      let named (d b : Nat) : Nat := entries.countP fun e => e.die == d && e.block == b
      let last (d b : Nat) (y : PhysRecord) : Prop := y.state = .stale ∧ 0 < y.readers ∧ named d b = y.readers
      let ended (t : State) : Prop :=
        t.lease? id = none ∧ s.OtherLeases t id ∧ (∀ l : Nat, t.logical? l = s.logical? l)
        ∧ (∀ (d b : Nat) (y : PhysRecord), s.phys? d b = some y → named d b ≤ y.readers →
            (¬(last d b y ∧ y.weak ≠ none) → t.phys? d b = some { y with readers := y.readers - named d b })
            ∧ (last d b y → y.weak = none → ∃ z, t.die? d = some z ∧ b ∈ z.eraseQueue)
            ∧ ∀ m : WeakMark, last d b y → y.weak = some m → t.phys? d b
                = some { y with state := .retired, cause := some (if m = .host then .host else .weak), owner := none, readers := 0 })
        ∧ ((∀ (d b : Nat) (y : PhysRecord), s.phys? d b = some y → y.weak = none) → t.generation = s.generation ∧ t.save = s.save)
        ∧ t.relocations = s.relocations ∧ t.evaluationsOwed = s.evaluationsOwed ∧ t.params = s.params
      let bounded : Prop := ∀ (d b : Nat) (y : PhysRecord), s.phys? d b = some y → named d b ≤ y.readers
      let leaves (d b : Nat) : Bool := (s.phys? d b).any fun y => y.state == .stale && y.readers != 0 && y.readers == named d b
      let retires (d b : Nat) : Bool := leaves d b && (s.phys? d b).any fun y => y.weak.isSome
      let joins (d : Nat) : List Nat :=
        ((entries.filter fun e => e.die == d).map (·.block)).dedup.filter fun b => leaves d b && !retires d b
      let whole (s' t : State) : Prop :=
        t = { s' with
          table := t.table
          generation := t.generation
          leases := s.leases.setIfInBounds id none
          ports := t.ports
          save := t.save
          attention := t.attention
          drainCheckDue := s.drainCheckDue || s.tableState == .draining }
        ∧ (∀ q : PortId, t.ports[q] = { s'.ports[q] with issueDue := t.ports[q].issueDue }
            ∧ (t.ports[q].issueDue = true ↔ s'.ports[q].issueDue = true ∨ ∃ d : Nat, joins d ≠ [] ∧ s.diePort d = q))
        ∧ ((∃ d b : Nat, retires d b = true) → t.generation = s.generation + 1#32)
        ∧ ((∀ d b : Nat, retires d b = false) → t.generation = s.generation ∧ t.save = s.save)
        ∧ (∃ a : CauseSet, s.Saves t.save a)
        ∧ t.geometry = s.geometry
        ∧ (∀ (d : Nat) (x : Die), s.die? d = some x →
            let k := (List.range x.blocks.length).countP (retires d)
            ∃ z, t.die? d = some z ∧ z.eraseQueue = x.eraseQueue.filter (fun b => !retires d b) ++ joins d
              ∧ z.spares = x.spares.filter (fun b => !retires d b) ∧ z.rescue = x.rescue
              ∧ z.retired = x.retired + k ∧ z.reserve = x.reserve - k ∧ z.initialReserve = x.initialReserve
              ∧ z.health = (if k = 0 then x.health else healthOf s.params.spareWarn z.reserve)
              ∧ z.mapped = x.mapped
              ∧ ∀ c n : Nat, c ≤ 62 → x.wear[c]? = some n → z.wear[c]? = some (n - (List.range x.blocks.length).countP fun b =>
                  retires d b && (x.blocks[b]?).any fun y => min (y.eraseCount / s.geometry.classWidth) 62 == c))
        ∧ (s.DiesKept → ∀ c : Cause, c.isIn t.attention = true ↔ c.isIn s.attention = true
            ∨ (c = .dieHealth ∧ ∃ (d : Nat) (x z : Die), s.die? d = some x ∧ t.die? d = some z ∧ z.health ≠ x.health)
            ∨ (c = .opDone ∧ s.save.status = .running ∧ t.save.status = .shadowFull))
      (∀ f : Frame, s.Heads p f (some .release) → f.byte0.toNat = id → f.tag = lease.tag →
        let s' := s.answered p [answerFrame f.tag .ok 0x06#8 f.byte0 []]
        ∃ t : State, exec (.release p) s = .next t ∧ ended t ∧ (bounded → whole s' t)
          ∧ t.ports[p].outgoing = s.ports[p].outgoing ++ [answerFrame f.tag .ok 0x06#8 f.byte0 []])
      ∧ (lease.expiry ≠ none →
        let q := s.ports[p]
        let q' : Port :=
          if q.outgoing.length < 32 then { q with outgoing := q.outgoing ++ [⟨0x83#8, lease.tag, [0x0000#16 ++ byte id.val ++ 0x01#8]⟩] }
          else { q with notices := q.notices ++ [⟨.expired, id, false, lease.tag⟩] }
        ∃ t : State, exec (.leaseExpiry id) s = .next t ∧ ended t ∧ (bounded → whole { s with ports := s.ports.set p q' } t)
          ∧ (if s.ports[p].outgoing.length < 32 then
              t.ports[p].outgoing = s.ports[p].outgoing ++ [⟨0x83#8, lease.tag, [0x0000#16 ++ byte id.val ++ 0x01#8]⟩]
            else t.ports[p].notices = s.ports[p].notices ++ [⟨.expired, id, false, lease.tag⟩])))

/-- R68, R69, R93, R16: DISCARD is answered OFFLINE outside ONLINE and DRAINING, BAD_ARG when L is LOGICAL_COUNT or more, LOCKED with the
holding port. Otherwise, with no relocation of L active, an UNMAPPED L is answered OK with its version and nothing changes; a MAPPED L becomes
UNMAPPED under the next version with risk NONE, its block goes to STALE and is disposed of, its rescue entry is removed, and the generation
steps once. A relocation of L in WAIT_SLOT is freed with its destination SPARE again, one in COPYING becomes CANCELLED, and L does not return to
the rescue queue; the answer, and what becomes of L's block, are the same. -/
def Obligations.DiscardUnmaps : Prop :=
  ∀ (p : PortId) (f : Frame) (s : State), s.Heads p f (some .discard) →
    let l := f.low.toNat
    let answer (status : AnswerStatus) (words : List Word) : State := s.answered p [answerFrame f.tag status 0x08#8 0xFF#8 words]
    let served : Prop := s.tableState = .online ∨ s.tableState = .draining
    (¬served → exec (.discard p) s = .next (answer .offline []))
    ∧ (served → s.logical? l = none → exec (.discard p) s = .next (answer .badArg []))
    ∧ ∀ r : LogicalRecord, served → s.logical? l = some r →
        (∀ (id : Nat) (x : Lease), r.writeLease = some id → s.lease? id = some x →
          exec (.discard p) s = .next (answer .locked [BitVec.ofNat 32 x.port.val]))
        ∧ (r.writeLease = none → s.activeRelocation l = none → r.block = none →
            exec (.discard p) s = .next (answer .ok [0#16 ++ r.version]))
        ∧ (∀ (t : Table) (x : Die) (b : Nat) (y : PhysRecord), r.writeLease = none → s.activeRelocation l = none → s.table = some t →
            t.dies[t.geometry.home l]? = some x → r.block = some b → x.blocks[b]? = some y → y.state = .mapped →
            let x' := x.withStale t.geometry.classWidth s.params.spareWarn b y
            ∃ (v : SaveSweep) (a : CauseSet), s.Saves v a ∧
              exec (.discard p) s = .next (State.disposed { answer .ok [0#16 ++ (r.version + 1#16)] with
                table := some (t.put l { r with block := none, version := r.version + 1#16, risk := .none } (t.geometry.home l)
                  { x' with rescue := x.rescue.filter (· != l) })
                generation := s.generation + 1#32
                save := v
                attention := a } (t.geometry.home l) y x.health x'.health))
        ∧ ∀ (m : Relocation) (b : Nat) (c : PhysRecord), r.writeLease = none → s.activeRelocation l = some m → r.block = some b →
            s.phys? (s.home l) m.destination = some c → c.state = .allocated → b ≠ m.destination → s.home l < 8 →
            ∃ t : State, exec (.discard p) s = .next t
              ∧ t.logical? l = some { r with block := none, version := r.version + 1#16, risk := .none, relocating := false }
              ∧ s.OtherLogical t l ∧ s.OtherBlocks t (s.home l) [b, m.destination] ∧ t.generation = s.generation + 1#32
              ∧ t.evaluationsOwed = s.evaluationsOwed ∧ t.leases = s.leases ∧ l ∉ t.rescue (s.home l) ∧ t.lastServed = some p
              ∧ (∀ q : PortId, t.ports[q]
                  = { (answer .ok [0#16 ++ (r.version + 1#16)]).ports[q] with issueDue := t.ports[q].issueDue })
              ∧ (∀ (x : Die) (y : PhysRecord), s.die? (s.home l) = some x → x.blocks[b]? = some y → y.state = .mapped →
                  ∃ z, t.die? (s.home l) = some z
                    ∧ (y.readers ≠ 0 → z.blocks[b]? = some { y with state := .stale, owner := none } ∧ z.eraseQueue = x.eraseQueue
                        ∧ z.retired = x.retired)
                    ∧ (y.readers = 0 → y.weak = none → z.blocks[b]? = some { y with state := .stale, owner := none }
                        ∧ z.eraseQueue = x.eraseQueue ++ [b] ∧ z.retired = x.retired ∧ t.ports[s.diePort (s.home l)].issueDue = true)
                    ∧ ∀ mark : WeakMark, y.readers = 0 → y.weak = some mark →
                        z.blocks[b]? = some { y with
                          state := .retired
                          cause := some (if mark = .host then .host else .weak)
                          owner := none }
                        ∧ z.retired = x.retired + 1 ∧ z.reserve = x.reserve - 1 ∧ z.health = healthOf s.params.spareWarn z.reserve
                        ∧ (z.health ≠ x.health → Cause.dieHealth.isIn t.attention = true))
              ∧ (m.state = .waitSlot → t.relocation? (s.home l) = none ∧ s.home l ∉ t.waiting ∧ m.destination ∈ t.spares (s.home l)
                  ∧ t.phys? (s.home l) m.destination = some { c with state := .spare, owner := none })
              ∧ ∀ tag epoch : Byte, m.state = .copying tag epoch →
                  t.relocation? (s.home l) = some { m with state := .cancelled tag epoch }
                  ∧ t.phys? (s.home l) m.destination = some c

/-- R47, R71, R132: what a request of port `p` does to the leases of the other ports: nothing. -/
def Obligations.RequestsKeepOtherPortsLeases : Prop :=
  ∀ (c : Instr) (p : PortId) (s t : State),
    c ∈ [Instr.setGroup p, .openRead p, .openWrite p, .commit p, .release p, .renew p, .discard p, .reportWeak p, .orderDone p,
      .unknownRequest p] →
    exec c s = .next t → ∀ (id : Nat) (l : Lease), s.lease? id = some l → l.port ≠ p → t.lease? id = some l

/-! ### Weak blocks and relocations (R42, R43, R73 to R75, R81 to R91) -/

/-- R75, R76: an offer of a logical block to its home die's rescue queue merges with its active relocation, which becomes RESCUE; else
with its entry; else it joins, at the head or at the tail (a trigger for the die), where fewer than 16 entries stand; else DATA_AT_RISK
is raised. R73, R74, R42, R43: REPORT_WEAK (answered OFFLINE outside ONLINE and DRAINING) and RETIRE_BLOCK (WRONG_STATE without a table)
of a block the table has not are answered BAD_ARG. On a FIXED, ALLOCATED, ERASING or RETIRED block they change nothing (NO_EFFECT;
WRONG_STATE), nor does REPORT_WEAK on a SPARE one, which RETIRE_BLOCK retires with cause HOST. A MAPPED block is marked (PORT does not
replace HOST, HOST replaces PORT) and its owner offered to the rescue queue, at the tail; QUEUE_FULL or LIST_FULL says the queue was
full. A STALE block is marked, and without readers retires with its mark's cause. The generation steps when a recorded field changed.
The answer carries the block's state and mark after it. -/
def Obligations.WeakReportsAndOffers : Prop :=
  (∀ (l : Nat) (atHead : Bool) (s : State) (t : Table) (x : Die), s.table = some t → t.dies[t.geometry.home l]? = some x →
    let d := t.geometry.home l
    let queued (queue : List Nat) : State := { s with table := some { t with dies := t.dies.set d { x with rescue := queue } } }
    (∀ r : Relocation, s.activeRelocation l = some r →
        s.offer l atHead = { s with relocations := s.relocations.setIfInBounds d (some { r with kind := .rescue }) })
    ∧ (s.activeRelocation l = none → l ∈ x.rescue → s.offer l atHead = s)
    ∧ (s.activeRelocation l = none → l ∉ x.rescue → x.rescue.length < 16 →
        s.offer l atHead = if atHead then queued (l :: x.rescue) else (queued (x.rescue ++ [l])).triggerDie d)
    ∧ (s.activeRelocation l = none → l ∉ x.rescue → 16 ≤ x.rescue.length →
        s.offer l atHead = { s with attention := s.attention ||| 0b00100#5 }))
  ∧ (∀ (p : PortId) (f : Frame) (die : Byte) (block : Half) (s : State), die = f.byte0 → block = f.high →
      let d := die.toNat
      let b := block.toNat
      let answer (status : AnswerStatus) (words : List Word) : State := s.answered p [answerFrame f.tag status 0x09#8 0xFF#8 words]
      let mark (host : Bool) (y : PhysRecord) : PhysRecord :=
        { y with weak := if host ∨ y.weak = some .host then some .host else some .port }
      let report (host : Bool) (t : State) (full : Bool) (y : PhysRecord) : Prop :=
        if host then
          s.Ready → exec (.retireBlock die block) s
            = .next (t.responded (if full then .listFull else .ok) [0#5 ++ y.state.code, 0#6 ++ weakCode y.weak])
        else
          s.Heads p f (some .reportWeak) → exec (.reportWeak p) s = .next (({ t with
            lastServed := some p
            ports := t.ports.set p (t.ports[p].answered [answerFrame f.tag (if full then .queueFull else .ok) 0x09#8 0xFF#8
              [0#16 ++ (0#6 ++ weakCode y.weak) ++ (0#5 ++ y.state.code)]]) }))
      let served (host : Bool) : Prop := if host then s.tableState.hasTable = true else s.tableState = .online ∨ s.tableState = .draining
      (¬served false → s.Heads p f (some .reportWeak) → exec (.reportWeak p) s = .next (answer .offline []))
      ∧ (¬served true → s.Ready → exec (.retireBlock die block) s = .next (s.responded .wrongState []))
      ∧ (served false → s.phys? d b = none → s.Heads p f (some .reportWeak) → exec (.reportWeak p) s = .next (answer .badArg []))
      ∧ (served true → s.phys? d b = none → s.Ready → exec (.retireBlock die block) s = .next (s.responded .badArg []))
      ∧ ∀ y : PhysRecord, s.phys? d b = some y →
          (served false → y.state ≠ .mapped → y.state ≠ .stale → s.Heads p f (some .reportWeak) →
            exec (.reportWeak p) s = .next (answer .noEffect [0#16 ++ (0#6 ++ weakCode y.weak) ++ (0#5 ++ y.state.code)]))
          ∧ (served true → y.state ≠ .mapped → y.state ≠ .stale → y.state ≠ .spare → s.Ready →
            exec (.retireBlock die block) s = .next (s.responded .wrongState []))
          ∧ ∀ (t : Table) (x : Die), s.table = some t → t.dies[d]? = some x →
              let w := t.geometry.classWidth
              let changed (x' : Die) (v : SaveSweep) (a : CauseSet) : State := { s with
                table := some { t with dies := t.dies.set d x' }
                generation := s.generation + 1#32
                save := v
                attention := a }
              (served true → y.state = .spare →
                let x' := x.withRetired w s.params.spareWarn b y .host y.eraseCount
                ∃ (v : SaveSweep) (a : CauseSet), s.Saves v a ∧
                  report true ((changed x' v a).raiseIf (x'.health != x.health) .dieHealth) false
                    { y with state := .retired, cause := some .host, owner := none, readers := 0 })
              ∧ ∀ host : Bool, served host →
                  (∀ l : Nat, y.state = .mapped → y.owner = some l →
                    ∃ (v : SaveSweep) (a : CauseSet), s.Saves v a ∧
                      let marked : State := if mark host y = y then s else changed { x with blocks := x.blocks.set b (mark host y) } v a
                      report host (marked.offer l false) (s.offerRefused l) (mark host y))
                  ∧ (y.state = .stale → y.readers ≠ 0 →
                    ∃ (v : SaveSweep) (a : CauseSet), s.Saves v a ∧
                      report host (if mark host y = y then s else changed { x with blocks := x.blocks.set b (mark host y) } v a) false
                        (mark host y))
                  ∧ (y.state = .stale → y.readers = 0 →
                    let cause : RetireCause := if (mark host y).weak = some .host then .host else .weak
                    let x' := Die.withRetired { x with blocks := x.blocks.set b (mark host y) } w s.params.spareWarn b (mark host y) cause
                      y.eraseCount
                    ∃ (v : SaveSweep) (a : CauseSet), s.Saves v a ∧
                      report host ((changed x' v a).raiseIf (x'.health != x.health) .dieHealth) false
                        { mark host y with state := .retired, cause := some cause, owner := none, readers := 0 }))

/-- R81, R82: an evaluation that no trigger owes does not happen; one that is owed is made once, and starts nothing unless the table is
ONLINE, the die's slot empty and its spare list not empty, or while every entry of a non-empty rescue queue is write leased, or, with
the queue empty, unless the level monitor is enabled, the die GOOD, and the gap from its lowest mapped class to the back spare's class
is LEVEL_GAP or more, or where no block of the lowest mapped class qualifies as a source (R83, R84). That a trigger is owed in the state, and
served once, is the model's choice (log entries 3 and 4). R83, R84, R85: an owed evaluation of an ONLINE die with an empty slot and a spare starts a relocation.
With a rescue entry, of the oldest whose logical block holds no write lease, from its block to the front spare, and the entry leaves the
queue. With an empty queue, the level monitor enabled, the die GOOD and the class gap reached, of the lowest block of the lowest mapped
class that is unmarked and whose owner holds no write lease, to the back spare. The relocation waits, attempt 1, at the tail of the
waiting list; the destination is ALLOCATED, the logical block's relocation link set, the owning port to be considered, and the
generation steps once. -/
def Obligations.EvaluationOfADie : Prop :=
  (∀ (d : SlotId) (s : State),
    (s.evaluationsOwed[d] = 0 → exec (.relocationEvaluation d) s = .next s)
    ∧ ∀ n : Nat, s.evaluationsOwed[d] = n + 1 →
        (s.tableState ≠ .online ∨ s.relocation? d ≠ none ∨ s.spares d = []
          ∨ (s.rescue d ≠ [] ∧ ∀ l ∈ s.rescue d, ∀ r, s.logical? l = some r → r.writeLease ≠ none)
          ∨ (s.rescue d = [] ∧ s.params.levelEnable = false)
          ∨ (s.rescue d = [] ∧ s.health? d ≠ some .good)
          ∨ (s.rescue d = [] ∧ ∀ x : Die, s.die? d = some x → ∀ c ≤ 62, ∀ back, x.spares.getLast? = some back → x.mapped[c]? = some 0
              ∨ classOf s.geometry.classWidth (x.eraseCount back) < c + s.params.levelGap)
          ∨ (s.rescue d = [] ∧ ∀ x : Die, s.die? d = some x → ∀ low ≤ 62, (∀ c < low, x.mapped[c]? = some 0) → x.mapped[low]? ≠ some 0 →
              ∀ y ∈ x.blocks, ∀ (l : Nat) (r : LogicalRecord), y.state = .mapped → min (y.eraseCount / s.geometry.classWidth) 62 = low →
                y.owner = some l → s.logical? l = some r → y.weak ≠ none ∨ r.writeLease ≠ none)) →
        exec (.relocationEvaluation d) s = .next { s with evaluationsOwed := s.evaluationsOwed.set d n })
  ∧ (∀ (d : SlotId) (n : Nat) (s : State) (t : Table) (x : Die) (l a b : Nat) (r : LogicalRecord) (y : PhysRecord),
      s.evaluationsOwed[d] = n + 1 → s.tableState = .online → s.relocation? d = none → s.table = some t → t.dies[d]? = some x →
      t.geometry.home l = d → t.logical[l]? = some r → x.blocks[b]? = some y → y.state = .spare →
      let unleased (k : Nat) : Prop := ∃ u, t.logical[k]? = some u ∧ u.writeLease = none
      let started (kind : RelocationKind) (x' : Die) : Prop :=
        ∃ (v : SaveSweep) (c : CauseSet), s.Saves v c ∧
          exec (.relocationEvaluation d) s = .next (State.considerOwner { s with
            evaluationsOwed := s.evaluationsOwed.set d n
            relocations := s.relocations.setIfInBounds d (some ⟨kind, l, a, b, 1, .waitSlot⟩)
            waiting := s.waiting ++ [d.val]
            table := some (t.put l { r with relocating := true } d x')
            generation := s.generation + 1#32
            save := v
            attention := c } d)
      (∀ before after rest : List Nat, x.rescue = before ++ l :: after → (∀ k ∈ before, ¬unleased k) → unleased l → r.block = some a →
          x.spares = b :: rest →
          started .rescue { x with
            blocks := x.blocks.set b { y with state := .allocated }
            spares := rest
            rescue := x.rescue.filter (· != l) })
      ∧ ∀ (rest : List Nat) (low : Nat) (z : PhysRecord), x.rescue = [] → s.params.levelEnable = true → x.health = .good →
          x.spares = rest ++ [b] → low ≤ 62 → (∃ m, x.mapped[low]? = some (m + 1)) → (∀ c < low, x.mapped[c]? = some 0) →
          low + s.params.levelGap ≤ min (y.eraseCount / t.geometry.classWidth) 62 →
          let source (u : PhysRecord) : Prop :=
            u.state = .mapped ∧ min (u.eraseCount / t.geometry.classWidth) 62 = low ∧ u.weak = none ∧ ∃ k, u.owner = some k ∧ unleased k
          x.blocks[a]? = some z → source z → z.owner = some l → (∀ k < a, ∀ u, x.blocks[k]? = some u → ¬source u) →
          started .level { x with blocks := x.blocks.set b { y with state := .allocated }, spares := rest })

/-! ### Orders (chapter 5) -/

/-- R102, R103: a consideration that is not owed does not happen; one that is owed ends, issuing nothing, when the port is not UP, the
table not ONLINE, its four slots full, its outgoing queue full, or no work is chosen. R99, R100, R106, R87: an owed consideration with
work issues one order: in the lowest empty slot, under the first tag from the port's counter on that no issued order carries, the port's
epoch and ORDER_LIMIT, with its ORDER frame placed. A COPY's relocation leaves the waiting list and becomes COPYING under tag and epoch,
and no record changes; an ERASE's block leaves the head of its queue and becomes ERASING, its die becomes the last erase die, and the
generation steps once. That a consideration is owed in the state, that one not owed does not happen, and that the port stays to be considered
after an issue are the model's choices (log entries 3 and 4). -/
def Obligations.ConsiderationOfAPort : Prop :=
  (∀ (p : PortId) (s : State),
    (s.ports[p].issueDue = false → exec (.dispatchConsideration p) s = .next s)
    ∧ (s.ports[p].issueDue = true →
        (s.ports[p].link ≠ .up ∨ s.tableState ≠ .online ∨ 4 ≤ s.ports[p].orders.length ∨ 32 ≤ s.ports[p].outgoing.length
          ∨ s.chooseWork p = none) →
        exec (.dispatchConsideration p) s
          = .next { s with ports := s.ports.set p { s.ports[p] with issueDue := false } }))
  ∧ (∀ (p : PortId) (s : State) (d k slot : Nat) (work : OrderWork),
      let x := s.ports[p]
      x.issueDue = true → x.link = .up → s.tableState = .online → x.orders.length < 4 → x.outgoing.length < 32 →
      s.chooseWork p = some (d, work) →
      slot < 4 → (∀ o ∈ x.orders, o.slot ≠ slot) → (∀ i < slot, ∃ o ∈ x.orders, o.slot = i) →
      k ≤ 3 → (∀ o ∈ x.orders, o.tag ≠ x.tagCounter + BitVec.ofNat 8 k) →
      (∀ j < k, ∃ o ∈ x.orders, o.tag = x.tagCounter + BitVec.ofNat 8 j) →
      let tag := x.tagCounter + BitVec.ofNat 8 k
      let order : Order := ⟨slot, work, d, tag, x.epoch, s.params.orderLimit⟩
      let issued (last : Option Nat) (w0 w1 : Word) : State := { s with ports := s.ports.set p { x with
        orders := x.orders ++ [order]
        tagCounter := tag + 1#8
        outgoing := x.outgoing ++ [⟨0x82#8, tag, [w0, w1]⟩]
        lastEraseDie := last } }
      (∀ (a b : Nat) (r : Relocation), work = .copy a b → s.relocation? d = some r →
        exec (.dispatchConsideration p) s = .next
          { issued x.lastEraseDie (0#13 ++ BitVec.ofNat 3 d ++ x.epoch ++ 0x01#8) (0#6 ++ BitVec.ofNat 10 b ++ 0#6 ++ BitVec.ofNat 10 a) with
            relocations := s.relocations.setIfInBounds d (some { r with state := .copying tag x.epoch })
            waiting := s.waiting.filter (· != d) })
      ∧ ∀ (b : Nat) (t : Table) (y : Die) (z : PhysRecord), work = .erase b → s.table = some t → t.dies[d]? = some y →
          y.blocks[b]? = some z → z.state = .stale →
          let y' : Die := { y with blocks := y.blocks.set b { z with state := .erasing }, eraseQueue := y.eraseQueue.tail }
          ∃ (v : SaveSweep) (a : CauseSet), s.Saves v a ∧
            exec (.dispatchConsideration p) s = .next
              { issued (some d) (0#13 ++ BitVec.ofNat 3 d ++ x.epoch ++ 0x00#8) (0#22 ++ BitVec.ofNat 10 b) with
                table := some { t with dies := t.dies.set d y' }
                generation := s.generation + 1#32
                save := v
                attention := a })

/-- R104, R105: the work a port chooses: the oldest waiting RESCUE of a die it owns; else the oldest waiting LEVEL; else, with fewer than 3
ERASE orders issued, the head of the erase queue of the first die it owns, after its last erase die in the cycle of die numbers, whose queue
is not empty. -/
def Obligations.DispatcherChoosesWork : Prop :=
  ∀ (p : PortId) (s : State),
    let owns (d : Nat) : Prop := d < s.geometry.dieCount ∧ s.diePort d = p
    let waits (d : Nat) (kind : RelocationKind) : Prop := ∃ r, s.relocation? d = some r ∧ r.kind = kind
    let none' (kind : RelocationKind) : Prop := ∀ d ∈ s.waiting, owns d → ¬waits d kind
    (∀ (kind : RelocationKind) (before after : List Nat) (d : Nat) (r : Relocation), s.waiting = before ++ d :: after → owns d →
        s.relocation? d = some r → r.kind = kind → (∀ e ∈ before, owns e → ¬waits e kind) → (kind = .level → none' .rescue) →
        s.chooseWork p = some (d, .copy r.source r.destination))
    ∧ (none' .rescue → none' .level → 3 ≤ s.ports[p].orders.countP (fun o => o.isErase) → s.chooseWork p = none)
    ∧ (none' .rescue → none' .level → (∀ d x, owns d → s.die? d = some x → x.eraseQueue = []) → s.chooseWork p = none)
    ∧ ∀ (d b : Nat) (x : Die), none' .rescue → none' .level → s.ports[p].orders.countP (fun o => o.isErase) < 3 → owns d →
        s.die? d = some x → x.eraseQueue.head? = some b → s.geometry.dieCount ≤ 8 →
        let turn (e : Nat) : Nat := match s.ports[p].lastEraseDie with
          | some last => if last < s.geometry.dieCount ∧ s.diePort last = p then (e + 8 - last - 1) % 8 else e
          | none => e
        (∀ (e : Nat) (z : Die), owns e → s.die? e = some z → turn e < turn d → z.eraseQueue = []) →
        s.chooseWork p = some (d, .erase b)

/-- R107: ORDER_DONE whose tag and epoch match no order issued on the port, or whose epoch is not the port's, is answered UNKNOWN_ORDER;
one whose status does not suit the order's kind is answered BAD_ARG, and the order stays. Nothing else changes. R108, R33, R34, R28: a
matched ORDER_DONE of an ERASE empties its slot and is answered OK; it is a trigger for the die, and the port is to be considered. OK
(00) adds 1 to the block's erase count, saturating, and an unmarked block becomes SPARE at its place in the spare list, a marked one
RETIRED with its mark's cause. FAIL (01) makes it RETIRED with cause ERASE_FAIL, its count kept. The generation steps once. -/
def Obligations.OrderDoneOfAnErase : Prop :=
  (∀ (p : PortId) (f : Frame) (s : State), s.Heads p f (some .orderDone) →
    let refused (status : AnswerStatus) : Host.Outcome State Fault Refusal :=
      .next (s.answered p [answerFrame f.tag status 0x0A#8 0xFF#8 []])
    ((f.byte1 ≠ s.ports[p].epoch ∨ ∀ o ∈ s.ports[p].orders, o.tag ≠ f.byte0 ∨ o.epoch ≠ f.byte1) →
      exec (.orderDone p) s = refused .unknownOrder)
    ∧ ∀ o ∈ s.ports[p].orders, (s.ports[p].orders.map (·.tag)).Nodup → o.tag = f.byte0 → o.epoch = f.byte1 →
        f.byte1 = s.ports[p].epoch →
        ((∃ b, o.work = .erase b) → 2 ≤ f.byte2.toNat → exec (.orderDone p) s = refused .badArg)
        ∧ ((∃ a b, o.work = .copy a b) → f.byte2 = 0x01#8 ∨ 4 ≤ f.byte2.toNat → exec (.orderDone p) s = refused .badArg))
  ∧ (∀ (p : PortId) (f : Frame) (s : State) (o : Order) (b : Nat) (t : Table) (x : Die) (y : PhysRecord),
      s.Heads p f (some .orderDone) → o ∈ s.ports[p].orders → (s.ports[p].orders.map (·.tag)).Nodup → o.tag = f.byte0 →
      o.epoch = f.byte1 → f.byte1 = s.ports[p].epoch → o.work = .erase b → s.table = some t → t.dies[o.die]? = some x →
      x.blocks[b]? = some y → y.state = .erasing → y.owner = none → y.readers = 0 → y.cause = none →
      let w := t.geometry.classWidth
      let count := min (y.eraseCount + 1) 16777215
      let q := s.ports[p].answered [answerFrame f.tag .ok 0x0A#8 0xFF#8 []]
      let done (v : SaveSweep) (a : CauseSet) (x' : Die) : State :=
        (State.raiseIf { s with
          ports := s.ports.set p { q with orders := s.ports[p].orders.filter (· != o), issueDue := true }
          lastServed := some p
          table := some { t with dies := t.dies.set o.die x' }
          generation := s.generation + 1#32
          drainCheckDue := s.drainCheckDue || s.tableState == .draining
          save := v
          attention := a } (x'.health != x.health) .dieHealth).triggerDie o.die
      ∃ (v : SaveSweep) (a : CauseSet), s.Saves v a
      ∧ (f.byte2 = 0x00#8 → y.weak = none →
          let z := x.writeBlock w b y { y with state := .spare, eraseCount := count }
          exec (.orderDone p) s = .next (done v a { z with spares := insertSpare z.eraseCount b x.spares }))
      ∧ (∀ m : WeakMark, f.byte2 = 0x00#8 → y.weak = some m →
          exec (.orderDone p) s = .next (done v a
            (x.withRetired w s.params.spareWarn b y (if m = .host then .host else .weak) count)))
      ∧ (f.byte2 = 0x01#8 →
          exec (.orderDone p) s = .next (done v a (x.withRetired w s.params.spareWarn b y .eraseFail y.eraseCount))))

/-- R88, R90, R108: a COPY result for an active relocation of L. OK (00) moves L to the destination under the next version, its risk kept, makes the
destination MAPPED, sends the source to STALE and disposes of it, and removes L's rescue entry. READ_FAIL (03) sends the destination to STALE
and the erase queue, marks the source PORT unless HOST, makes L's risk UNREADABLE and raises DATA_AT_RISK. Both free the relocation, clear
L's link, are a trigger for the die, and step the generation once. -/
def Obligations.ActiveCopyResults : Prop :=
  ∀ (p : PortId) (f : Frame) (s : State) (o : Order) (m : Relocation) (t : Table) (r : LogicalRecord) (x : Die) (y z : PhysRecord),
    s.Heads p f (some .orderDone) → o ∈ s.ports[p].orders → (s.ports[p].orders.map (·.tag)).Nodup → o.tag = f.byte0 →
    o.epoch = f.byte1 → f.byte1 = s.ports[p].epoch → o.work = .copy m.source m.destination → s.relocation? o.die = some m →
    m.state = .copying o.tag o.epoch → s.table = some t → t.logical[m.logical]? = some r → t.geometry.home m.logical = o.die →
    t.dies[o.die]? = some x → x.blocks[m.destination]? = some y → x.blocks[m.source]? = some z → m.source ≠ m.destination →
    y.state = .allocated → y.owner = none → y.readers = 0 → y.weak = none → z.state = .mapped →
    let w := t.geometry.classWidth
    let warn := s.params.spareWarn
    let q := s.ports[p].answered [answerFrame f.tag .ok 0x0A#8 0xFF#8 []]
    let done (v : SaveSweep) (a : CauseSet) (r' : LogicalRecord) (x' : Die) : State :=
      State.triggerDie { s with
        ports := s.ports.set p { q with orders := s.ports[p].orders.filter (· != o), issueDue := true }
        lastServed := some p
        relocations := s.relocations.setIfInBounds o.die none
        waiting := s.waiting.filter (· != o.die)
        table := some (t.put m.logical { r' with relocating := false } o.die x')
        generation := s.generation + 1#32
        drainCheckDue := s.drainCheckDue || s.tableState == .draining
        save := v
        attention := a } o.die
    ∃ (v : SaveSweep) (a : CauseSet), s.Saves v a
    ∧ (f.byte2 = 0x00#8 →
        let x' := (x.writeBlock w m.destination y { y with state := .mapped, owner := some m.logical }).withStale w warn m.source z
        exec (.orderDone p) s = .next ((done v a { r with block := some m.destination, version := r.version + 1#16 }
          { x' with rescue := x.rescue.filter (· != m.logical) }).disposed o.die z x.health x'.health))
    ∧ (f.byte2 = 0x03#8 →
        let x' := x.withStale w warn m.destination y
        let z' : PhysRecord := { z with weak := if z.weak = some .host then some .host else some .port }
        exec (.orderDone p) s = .next (((done v a { r with risk := .unreadable }
          { x' with blocks := x'.blocks.set m.source z' }).considerOwner o.die).raise .dataAtRisk))

/-- R89, R91, R108: a COPY result PROGRAM_FAIL (02) retires the destination with cause COPY_FAIL. For an active relocation in ONLINE, at attempt 1
or 2, with a spare left, it waits again at the tail with the next attempt on a new destination: the front spare for RESCUE, the back for
LEVEL; otherwise it is freed, a trigger, and a RESCUE's logical block returns to the rescue queue, at the tail, where it has no entry and there
is room. For a CANCELLED relocation the logical record stays, and the relocation is freed, a trigger: OK (00) and READ_FAIL (03) send the
destination to STALE and the erase queue, and READ_FAIL marks the source PORT unless HOST where it is ERASING, or MAPPED to the same logical
block, which is then in the rescue queue where there is room. A retry keeps the logical block's link, a free clears it. Each retirement counts
in the die's retired count, reserve and health; DATA_AT_RISK is raised when the rescue queue is full. -/
def Obligations.FailedAndCancelledCopies : Prop :=
  ∀ (p : PortId) (f : Frame) (s : State) (o : Order) (m : Relocation) (r : LogicalRecord) (x : Die) (y : PhysRecord),
    s.Heads p f (some .orderDone) → o ∈ s.ports[p].orders → (s.ports[p].orders.map (·.tag)).Nodup → o.tag = f.byte0 →
    o.epoch = f.byte1 → f.byte1 = s.ports[p].epoch → o.work = .copy m.source m.destination → s.relocation? o.die = some m →
    s.logical? m.logical = some r → s.home m.logical = o.die → s.die? o.die = some x → x.blocks[m.destination]? = some y →
    m.source ≠ m.destination → y.state = .allocated → y.readers = 0 → y.weak = none →
    let active : Prop := m.state = .copying o.tag o.epoch
    let cancelled : Prop := m.state = .cancelled o.tag o.epoch
    let spares := x.spares.filter (· != m.destination)
    let retried : Prop := s.tableState = .online ∧ m.attempt < 3 ∧ spares ≠ []
    let room : Bool := !x.rescue.contains m.logical && decide (x.rescue.length < 16)
    let full : Prop := m.logical ∉ x.rescue ∧ 16 ≤ x.rescue.length
    let counted (t : State) (n : Nat) : Prop := ∃ u, t.die? o.die = some u ∧ u.retired = x.retired + n ∧ u.reserve = x.reserve - n
      ∧ u.health = (if n = 0 then x.health else healthOf s.params.spareWarn u.reserve)
      ∧ (Cause.dieHealth.isIn t.attention = true ↔ Cause.dieHealth.isIn s.attention = true ∨ u.health ≠ x.health)
    let atRisk (t : State) (raised : Prop) : Prop :=
      Cause.dataAtRisk.isIn t.attention = true ↔ Cause.dataAtRisk.isIn s.attention = true ∨ raised
    let freed (t : State) (joins : Bool) : Prop :=
      t.relocation? o.die = none ∧ t.logical? m.logical = some { r with relocating := false } ∧ t.waiting = s.waiting.filter (· != o.die)
      ∧ t.evaluationsOwed = (if joins then (s.triggerDie o.die).triggerDie o.die else s.triggerDie o.die).evaluationsOwed
      ∧ t.rescue o.die = if joins then x.rescue ++ [m.logical] else x.rescue
    let common (t : State) : Prop :=
      t.ports[p].orders = s.ports[p].orders.filter (· != o) ∧ t.ports[p].issueDue = true
      ∧ t.ports[p].outgoing = s.ports[p].outgoing ++ [answerFrame f.tag .ok 0x0A#8 0xFF#8 []]
      ∧ t.leases = s.leases ∧ t.generation = s.generation + 1#32 ∧ s.OtherLogical t m.logical
      ∧ (∀ u, t.logical? m.logical = some u → u.toLogicalFields = r.toLogicalFields)
    let retired : PhysRecord := { y with state := .retired, cause := some .copyFail, owner := none }
    let staled (t : State) : Prop :=
      t.phys? o.die m.destination = some { y with state := .stale, owner := none } ∧ ∃ u, t.die? o.die = some u ∧ m.destination ∈ u.eraseQueue
    (f.byte2 = 0x02#8 → active → retried → ∀ (b : Nat) (c : PhysRecord),
        (if m.kind = .rescue then spares.head? = some b else spares.getLast? = some b) → x.blocks[b]? = some c →
        ∃ t : State, exec (.orderDone p) s = .next t ∧ common t ∧ t.phys? o.die m.destination = some retired
          ∧ t.logical? m.logical = some r ∧ counted t 1 ∧ atRisk t False
          ∧ t.relocation? o.die = some { m with destination := b, attempt := m.attempt + 1, state := .waitSlot }
          ∧ t.waiting = s.waiting ++ [o.die] ∧ t.phys? o.die b = some { c with state := .allocated }
          ∧ t.spares o.die = (if m.kind = .rescue then spares.tail else spares.dropLast) ∧ t.evaluationsOwed = s.evaluationsOwed
          ∧ s.OtherBlocks t o.die [m.destination, b])
    ∧ (f.byte2 = 0x02#8 → active → ¬retried →
        ∃ t : State, exec (.orderDone p) s = .next t ∧ common t ∧ t.phys? o.die m.destination = some retired
          ∧ freed t (decide (m.kind = .rescue ∧ room)) ∧ s.OtherBlocks t o.die [m.destination] ∧ counted t 1
          ∧ atRisk t (m.kind = .rescue ∧ full))
    ∧ (f.byte2 = 0x02#8 → cancelled →
        ∃ t : State, exec (.orderDone p) s = .next t ∧ common t ∧ t.phys? o.die m.destination = some retired ∧ freed t false
          ∧ s.OtherBlocks t o.die [m.destination] ∧ counted t 1 ∧ atRisk t False)
    ∧ (f.byte2 = 0x00#8 → cancelled →
        ∃ t : State, exec (.orderDone p) s = .next t ∧ common t ∧ staled t ∧ freed t false ∧ s.OtherBlocks t o.die [m.destination]
          ∧ counted t 0 ∧ atRisk t False)
    ∧ (f.byte2 = 0x03#8 → cancelled → ∀ z : PhysRecord, x.blocks[m.source]? = some z →
        let z' : PhysRecord := { z with weak := if z.weak = some .host then some .host else some .port }
        ∃ t : State, exec (.orderDone p) s = .next t ∧ common t ∧ staled t
          ∧ freed t (decide (z.state = .mapped ∧ z.owner = some m.logical ∧ room)) ∧ s.OtherBlocks t o.die [m.destination, m.source]
          ∧ counted t (if z.state = .stale ∧ z.readers = 0 then 1 else 0)
          ∧ atRisk t (z.state = .mapped ∧ z.owner = some m.logical ∧ full)
          ∧ (z.state = .erasing ∨ (z.state = .mapped ∧ z.owner = some m.logical) → t.phys? o.die m.source = some z')
          ∧ (z.state = .stale → z.readers ≠ 0 → t.phys? o.die m.source = some z')
          ∧ (z.state = .stale → z.readers = 0 → t.phys? o.die m.source = some { z' with
              state := .retired, cause := some (if z.weak = some .host then .host else .weak), owner := none })
          ∧ (z.state = .spare ∨ z.state = .allocated ∨ z.state = .retired ∨ (z.state = .mapped ∧ z.owner ≠ some m.logical) →
              t.phys? o.die m.source = some z))

/-! ### Invariants -/

/-- Every step keeps the invariant of the ports: a port that is not UP holds nothing, a port that holds a lease is UP, and the bounds of the
queues, credits, counters, orders, slots and tags hold (R99, R100, R104, R116, R118, R124, R126 to R128). -/
def Obligations.StepKeepsThePorts : Prop := ∀ s t : State, s.PortsKept → step s = .next t → t.PortsKept

/-- Every step keeps the invariant of the control of the table: which table state has a table, a load, a drain, a save, a lease or an order,
and the bounds of the bad list, the shadow table, the sweep and the parameters (chapters 7 and 8, sections 7.1.1 and 9.4). -/
def Obligations.StepKeepsTheControl : Prop := ∀ s t : State, s.ControlKept → step s = .next t → t.ControlKept

/-- Every step keeps the invariant of the dies: the histograms count the records by class, the reserve obeys the reserve law, the health
follows it, and the rescue queue has at most 16 entries, none twice (R20, R21, R38, R39, R76). -/
def Obligations.StepKeepsTheDies : Prop := ∀ s t : State, s.DiesKept → step s = .next t → t.DiesKept

/-- Every step keeps the records in step with all that names them, where the other invariants hold: mappings and owners (R4), links (R7),
readers (R10), ALLOCATED blocks and their one taker (R14), ERASING blocks and their one order (R17), spare lists in order (R27), erase queues
(R31), retired counts (R41), rescue queues (R76), relocations and their orders (R79), the waiting list (R80), index 63 of the histograms
(R20), and the forms of the records (R6, R8, R12, R13). -/
def Obligations.StepKeepsTheRecords : Prop :=
  ∀ s t : State, s.PortsKept → s.ControlKept → s.DiesKept → s.RecordsKept → step s = .next t → t.RecordsKept

/-- Device reset meets the four invariants. -/
def Obligations.ResetMeetsTheInvariants : Prop :=
  State.reset.PortsKept ∧ State.reset.ControlKept ∧ State.reset.DiesKept ∧ State.reset.RecordsKept

end
end

