-- ==== Sys2Proof/Laws/Commands.lean ====
section
/-! SUPPORT. How commands are taken: maintenance commands by phase and busy operation, requests by the arbiter's choice, and the answer a
request is given. -/

namespace Sys2Proof.Machine

variable {s : State}

/-! ### Maintenance commands (R173, R176) -/

theorem Reply.take_eq (r : Reply) : r.take = r.s.responded r.status r.payload := rfl

theorem State.reject_take (s : State) (status : MaintStatus) : (s.reject status).take = s.responded status [] := rfl

/-- R173: in phase COMMAND a command is taken. -/
theorem State.command_taken (h : s.phase = .command) (body : State → Reply) :
    s.command body = (body s).s.responded (body s).status (body s).payload := by
  unfold State.command; rw [if_pos h]; rfl

/-- R173: in another phase no command is received. -/
theorem State.command_other (h : s.phase ≠ .command) (body : State → Reply) : s.command body = s := by
  unfold State.command; rw [if_neg h]

/-- R176: while the part is not busy a gated command is taken. -/
theorem State.gated_taken (h : s.Ready) (body : State → Reply) :
    s.gatedCommand body = (body s).s.responded (body s).status (body s).payload := by
  unfold State.gatedCommand
  rw [State.command_taken h.1]
  simp [h.2]

theorem State.gated_other (h : s.phase ≠ .command) (body : State → Reply) : s.gatedCommand body = s :=
  State.command_other h _

/-- R176: while the part is busy a gated command is answered BUSY. -/
theorem State.gated_busy (h : s.phase = .command) (b : s.busy ≠ .none) (body : State → Reply) :
    s.gatedCommand body = s.responded .busy [s.busy.code, 0#8] := by
  unfold State.gatedCommand
  rw [State.command_taken h]
  cases e : s.busy <;> simp [e, busyPayload, flag, Busy.code] at b ⊢

/-- What a gated command can do: nothing, a BUSY response, or its own rule. -/
theorem State.gated_cases (s : State) (body : State → Reply) :
    (s.phase ≠ .command ∧ s.gatedCommand body = s)
    ∨ (s.phase = .command ∧ s.busy ≠ .none ∧ s.gatedCommand body = s.responded .busy [s.busy.code, 0#8])
    ∨ (s.Ready ∧ s.gatedCommand body = (body s).s.responded (body s).status (body s).payload) := by
  by_cases h : s.phase = .command
  · by_cases b : s.busy = .none
    · exact .inr (.inr ⟨⟨h, b⟩, State.gated_taken ⟨h, b⟩ body⟩)
    · exact .inr (.inl ⟨h, b, State.gated_busy h b body⟩)
  · exact .inl ⟨h, State.gated_other h body⟩

/-! ### Requests (R130, R132) -/

variable {p : PortId} {f : Frame} {kind : Option RequestKind}

/-- R130: where the arbiter's choice is not the port, no request of it is taken. -/
theorem State.taking_other (h : s.arbiterChoice ≠ some p) (kind : Option RequestKind) : s.taking p kind = none := by
  unfold State.taking; rw [if_neg h]

/-- R130: the head request of the arbiter's choice is taken. -/
theorem State.Heads.taking (h : s.Heads p f kind) : s.taking p kind = some (f, s.takeHead p) := by
  obtain ⟨h1, h2, h3⟩ := h
  unfold State.taking
  rw [if_pos h1]
  generalize s.ports[p] = x at h2 ⊢
  cases e : x.fifo with
  | nil => simp [e] at h2
  | cons g rest =>
    simp only [e, List.head?_cons, Option.some.injEq] at h2
    subst h2
    simp [h3]

/-- R132: a request taken is served on the state with its frame taken. -/
theorem State.Heads.serve (h : s.Heads p f kind) (body : Frame → State → State) : s.serve p kind body = body f (s.takeHead p) := by
  unfold State.serve; rw [h.taking]

/-- What a request's row can do: nothing, or its own rule on the head frame of the arbiter's choice. -/
theorem State.serve_cases (s : State) (p : PortId) (kind : Option RequestKind) (body : Frame → State → State) :
    s.serve p kind body = s ∨ ∃ f, s.Heads p f kind ∧ s.serve p kind body = body f (s.takeHead p) := by
  by_cases h : ∃ f, s.Heads p f kind
  · obtain ⟨f, h⟩ := h
    exact .inr ⟨f, h, h.serve body⟩
  · refine .inl ?_
    have : s.taking p kind = none := by
      unfold State.taking
      split
      · next h1 =>
        split
        · rfl
        · next g rest e =>
          split
          · next h3 => exact absurd ⟨g, h1, by rw [e]; rfl, h3⟩ h
          · rfl
      · rfl
    unfold State.serve; rw [this]

/-- R130: the port whose head request is taken is UP and its queue has room for the answer. -/
theorem State.Heads.eligible (h : s.Heads p f kind) :
    s.ports[p].link = .up ∧ s.ports[p].outgoing.length + s.ports[p].roomNeeded f ≤ 32 := by
  obtain ⟨h1, h2, -⟩ := h
  have he : s.ports[p].eligible = true := by
    have := List.find?_some h1
    simpa using this
  generalize s.ports[p] = x at h2 he ⊢
  unfold Port.eligible at he
  cases e : x.fifo with
  | nil => simp [e] at h2
  | cons g rest =>
    simp only [e, List.head?_cons, Option.some.injEq] at h2
    subst h2
    simp only [e, Bool.and_eq_true, beq_iff_eq] at he
    exact ⟨he.1, of_decide_eq_true he.2⟩

/-- R130: taking the head request keeps everything but the port and the last port served. -/
theorem State.takeHead_eq (s : State) (p : PortId) :
    s.takeHead p = { s with
      ports := s.ports.set p { s.ports[p] with fifo := s.ports[p].fifo.tail, credits := creditUp s.ports[p].credits }
      lastServed := some p } := rfl

/-- R132: an answer placed on the state with the head request taken. -/
theorem State.takeHead_place (s : State) (p : PortId) (frame : OutFrame) : (s.takeHead p).place p frame = s.answered p [frame] := by
  unfold State.place State.answered State.takeHead State.mapPort Port.answered creditUp Config.maxCredits
  simp

theorem State.takeHead_answer (s : State) (p : PortId) (f : Frame) (status : AnswerStatus) (lease : Byte) (words : List Word) :
    (s.takeHead p).answer p f status lease words = s.answered p [answerFrame f.tag status f.kind lease words] :=
  s.takeHead_place p _

theorem State.takeHead_refuse (s : State) (p : PortId) (f : Frame) (status : AnswerStatus) :
    (s.takeHead p).refuse p f status = s.answered p [answerFrame f.tag status f.kind 0xFF#8 []] :=
  s.takeHead_place p _

end Sys2Proof.Machine
end

