-- ==== Sys2Proof/Laws/Follows.lean ====
section
/-! SUPPORT. What the shared operations can do: every step of a change keeps the items outside the table, the leases, the relocations and the
save, keeps the ports but for `issueDue`, only ends leases, and leaves a save running or ends it with SHADOW_FULL. -/

namespace Sys2Proof.Machine

/-! ### The relation -/

/-- R164, R168, R169: what a change of records may do to a save: nothing, or, while it runs, add shadow entries up to 128, or end it with
SHADOW_FULL, the sweep position kept. -/
def SaveSweep.Follows (v w : SaveSweep) : Prop :=
  w = v ∨ v.status = .running ∧ w.size = v.size ∧ w.position = v.position ∧ w.header = v.header ∧ w.sum = v.sum
    ∧ (w.status = .running ∧ (v.shadow.length ≤ 128 → w.shadow.length ≤ 128) ∨ w.status = .shadowFull ∧ w.shadow = [])

/-- What the steps of a change may reach, and how. -/
structure State.Follows (s t : State) : Prop where
  /-- Everything outside these fields is as it was. -/
  same : t = { s with
    table := t.table
    generation := t.generation
    leases := t.leases
    relocations := t.relocations
    waiting := t.waiting
    evaluationsOwed := t.evaluationsOwed
    ports := t.ports
    save := t.save
    attention := t.attention }
  table : t.table.isSome = s.table.isSome
  geometry : t.geometry = s.geometry
  leases : ∀ id : Nat, t.lease? id = s.lease? id ∨ t.lease? id = none
  ports : ∀ p : PortId, t.ports[p] = { s.ports[p] with issueDue := t.ports[p].issueDue }
  save : s.save.Follows t.save

theorem SaveSweep.Follows.refl (v : SaveSweep) : v.Follows v := .inl rfl

theorem SaveSweep.Follows.trans {u v w : SaveSweep} (h : u.Follows v) (g : v.Follows w) : u.Follows w := by
  rcases h with rfl | ⟨h1, h2, h3, h4, h5, h6⟩
  · exact g
  · rcases g with rfl | ⟨g1, g2, g3, g4, g5, g6⟩
    · exact .inr ⟨h1, h2, h3, h4, h5, h6⟩
    · refine .inr ⟨h1, g2.trans h2, g3.trans h3, g4.trans h4, g5.trans h5, ?_⟩
      rcases h6 with ⟨-, h6⟩ | ⟨h6, -⟩
      · exact g6.imp (fun x => ⟨x.1, fun y => x.2 (h6 y)⟩) id
      · rw [h6] at g1; cases g1

theorem State.Follows.refl (s : State) : s.Follows s :=
  ⟨rfl, rfl, rfl, fun _ => .inl rfl, fun _ => rfl, .refl _⟩

theorem State.Follows.trans {s t u : State} (h : s.Follows t) (g : t.Follows u) : s.Follows u where
  same := by have := h.same; have := g.same; rw [h.same] at this; exact this
  table := g.table.trans h.table
  geometry := g.geometry.trans h.geometry
  leases id := by
    rcases g.leases id with e | e
    · rw [e]; exact h.leases id
    · exact .inr e
  ports p := by have a := h.ports p; have b := g.ports p; rw [a] at b; exact b
  save := h.save.trans g.save

/-- What the relation keeps, field by field. -/
theorem State.Follows.keeps {s t : State} (h : s.Follows t) :
    t.tableState = s.tableState ∧ t.badList = s.badList ∧ t.drainKind = s.drainKind ∧ t.drainCheckDue = s.drainCheckDue
      ∧ t.lastServed = s.lastServed ∧ t.load = s.load ∧ t.phase = s.phase ∧ t.response = s.response ∧ t.busy = s.busy
      ∧ t.lastResult = s.lastResult ∧ t.params = s.params ∧ t.pending = s.pending := by
  rw [h.same]
  exact ⟨rfl, rfl, rfl, rfl, rfl, rfl, rfl, rfl, rfl, rfl, rfl, rfl⟩

/-- An update that keeps the table, the leases, the ports and the save. -/
theorem State.Follows.of_eq {s t : State} (same : t = { s with
      relocations := t.relocations
      waiting := t.waiting
      evaluationsOwed := t.evaluationsOwed
      attention := t.attention }) : s.Follows t := by
  rw [same]
  exact ⟨rfl, rfl, rfl, fun _ => .inl rfl, fun _ => rfl, .refl _⟩

/-- A change whose state follows that of another; it alters a recorded field only where a table exists. -/
structure Change.Follows (c d : Change) : Prop where
  state : c.s.Follows d.s
  altered : d.altered = true → c.altered = true ∨ c.s.table.isSome = true

theorem Change.Follows.refl (c : Change) : c.Follows c := ⟨.refl c.s, .inl⟩

theorem Change.Follows.trans {c d e : Change} (h : c.Follows d) (g : d.Follows e) : c.Follows e where
  state := h.state.trans g.state
  altered a := by
    rcases g.altered a with x | x
    · exact h.altered x
    · rw [h.state.table] at x; exact .inr x

/-- A step of a change reaches what its update reaches. -/
theorem Change.Follows.on {c d : Change} {f : State → State} (h : c.Follows d) (g : d.s.Follows (f d.s)) : c.Follows (d.on f) :=
  ⟨h.state.trans g, h.altered⟩

/-- Folding steps that follow, follows. -/
theorem Change.Follows.foldl {α : Type} (f : Change → α → Change)
    (h : ∀ (c : Change) (a : α), c.Follows (f c a)) (l : List α) (c : Change) : c.Follows (l.foldl f c) := by
  induction l generalizing c with
  | nil => exact .refl c
  | cons a l ih => exact (h c a).trans (ih _)

/-- R22: the completion of a change; the generation stays 0 where no table exists. -/
theorem Change.Follows.finish {s : State} {c : Change} (h : s.begin.Follows c) :
    s.Follows c.finish ∧ (s.table = none → c.s.generation = s.generation → c.finish.generation = s.generation) := by
  unfold Change.finish
  split
  · next a =>
    refine ⟨State.Follows.trans h.state ⟨rfl, rfl, rfl, fun _ => .inl rfl, fun _ => rfl, .refl _⟩, fun t => ?_⟩
    rcases h.altered a with x | x
    · cases x
    · change s.table.isSome = true at x
      rw [t] at x; cases x
  · exact ⟨h.state, fun _ g => g⟩

/-! ### The updates -/

theorem State.follows_mapDie (s : State) (d : Nat) (f : Die → Die) : s.Follows (s.mapDie d f) :=
  ⟨rfl, by simp, by simp, fun _ => .inl rfl, fun _ => rfl, .refl _⟩

theorem State.follows_setLogical (s : State) (l : Nat) (r : LogicalRecord) :
    s.Follows (s.mapTable fun t => { t with logical := t.logical.set l r }) :=
  ⟨rfl, by simp, by unfold State.geometry; simp only [State.mapTable_table]; cases s.table <;> rfl, fun _ => .inl rfl, fun _ => rfl,
    .refl _⟩

theorem State.follows_consider (s : State) (p : PortId) : s.Follows (s.consider p) :=
  ⟨rfl, rfl, rfl, fun _ => .inl rfl, fun q => by
    unfold State.consider
    rw [State.mapPort_get]
    split
    · next h => rw [h]
    · rfl, .refl _⟩

theorem State.follows_considerOwner (s : State) (d : Nat) : s.Follows (s.considerOwner d) := s.follows_consider _

theorem State.follows_setRelocation (s : State) (d : Nat) (o : Option Relocation) : s.Follows (s.setRelocation d o) := .of_eq rfl
theorem State.follows_setWaiting (s : State) (w : List Nat) : s.Follows (s.setWaiting w) := .of_eq rfl
theorem State.follows_triggerDie (s : State) (d : Nat) : s.Follows (s.triggerDie d) := .of_eq rfl
theorem State.follows_raise (s : State) (x : Cause) : s.Follows (s.raise x) := .of_eq rfl

theorem State.follows_raiseIf (s : State) (b : Bool) (x : Cause) : s.Follows (s.raiseIf b x) := by
  unfold State.raiseIf; split
  · exact s.follows_raise x
  · exact .refl s

theorem State.follows_freeLease (s : State) (id : Nat) : s.Follows (s.setLease id none) :=
  ⟨rfl, rfl, rfl, fun i => by rw [State.setLease_lease?]; split <;> simp, fun _ => rfl, .refl _⟩

theorem State.follows_hand (s : State) (e : ShadowEntry) : s.Follows (s.hand e) := by
  have key : s.save.Follows (s.hand e).save := by
    unfold State.hand
    split
    · exact .refl _
    · next h =>
      have h : s.save.status = .running := by simpa using h
      split
      · exact .refl _
      · split
        · exact .refl _
        · split
          · next g =>
            refine .inr ⟨h, rfl, rfl, rfl, rfl, .inl ⟨h, fun _ => ?_⟩⟩
            simp only [List.length_append, List.length_singleton]
            unfold Config.shadowEntries at g
            omega
          · exact .inr ⟨h, rfl, rfl, rfl, rfl, .inr ⟨rfl, rfl⟩⟩
  rw [State.hand_eq] at key ⊢
  exact ⟨rfl, rfl, rfl, fun _ => .inl rfl, fun _ => rfl, key⟩

theorem State.follows_recomputeHealth (s : State) (d : Nat) : s.Follows (s.recomputeHealth d) := by
  unfold State.recomputeHealth
  split
  · exact .refl s
  · exact State.Follows.trans (State.follows_mapDie ..) (State.follows_raiseIf ..)

theorem State.follows_joinEraseQueue (s : State) (d b : Nat) : s.Follows (s.joinEraseQueue d b) :=
  State.Follows.trans (State.follows_mapDie ..) (State.follows_considerOwner ..)

theorem State.follows_leaveRescue (s : State) (l : Nat) : s.Follows (s.leaveRescue l) := s.follows_mapDie ..

theorem State.follows_offer (s : State) (l : Nat) (atHead : Bool) : s.Follows (s.offer l atHead) := by
  unfold State.offer
  dsimp only
  split
  · exact s.follows_setRelocation ..
  · split
    · exact .refl s
    · split
      · split
        · exact s.follows_mapDie ..
        · exact State.Follows.trans (s.follows_mapDie ..) (State.follows_triggerDie ..)
      · exact s.follows_raise ..

/-- R22: a record about to change is one of a table. -/
theorem Change.follows_alter (c : Change) (e : ShadowEntry) (h : c.s.table.isSome = true) : c.Follows (c.alter e) :=
  ⟨c.s.follows_hand e, fun _ => .inr h⟩

/-! ### The steps of a change -/

variable (c : Change)

theorem State.logical?_table {s : State} {l : Nat} {r : LogicalRecord} (h : s.logical? l = some r) : s.table.isSome = true := by
  unfold State.logical? at h
  cases e : s.table with
  | none => simp [e] at h
  | some t => rfl

theorem State.die?_table {s : State} {d : Nat} {x : Die} (h : s.die? d = some x) : s.table.isSome = true := by
  unfold State.die? at h
  cases e : s.table with
  | none => simp [e] at h
  | some t => rfl

theorem State.phys?_table {s : State} {d b : Nat} {r : PhysRecord} (h : s.phys? d b = some r) : s.table.isSome = true := by
  unfold State.phys? at h
  cases e : s.die? d with
  | none => simp [e] at h
  | some x => exact State.die?_table e

theorem Change.follows_writeLogical (l : Nat) (r : LogicalRecord) : c.Follows (c.writeLogical l r) := by
  unfold Change.writeLogical
  split
  · exact .refl _
  · next h =>
    refine Change.Follows.on ?_ (State.follows_setLogical ..)
    split
    · exact .refl _
    · exact c.follows_alter _ (State.logical?_table h)

theorem Change.follows_updateLogical (l : Nat) (f : LogicalRecord → LogicalRecord) : c.Follows (c.updateLogical l f) := by
  unfold Change.updateLogical
  split
  · exact .refl _
  · exact c.follows_writeLogical ..

theorem Change.follows_writePhys (d b : Nat) (r : PhysRecord) : c.Follows (c.writePhys d b r) := by
  unfold Change.writePhys
  split
  · exact .refl _
  · next h =>
    refine Change.Follows.on ?_ (State.follows_mapDie ..)
    split
    · exact .refl _
    · exact c.follows_alter _ (State.phys?_table h)

theorem Change.follows_updatePhys (d b : Nat) (f : PhysRecord → PhysRecord) : c.Follows (c.updatePhys d b f) := by
  unfold Change.updatePhys
  split
  · exact .refl _
  · exact c.follows_writePhys ..

theorem Change.follows_retireWith (d b : Nat) (cause : RetireCause) (n : Nat) : c.Follows (c.retireWith d b cause n) := by
  unfold Change.retireWith
  split
  · exact .refl _
  · exact (c.follows_writePhys ..).on (State.Follows.trans (State.follows_mapDie ..) (State.follows_recomputeHealth ..))

theorem Change.follows_retire (d b : Nat) (cause : RetireCause) : c.Follows (c.retire d b cause) := by
  unfold Change.retire
  split
  · exact .refl _
  · exact c.follows_retireWith ..

theorem Change.follows_dispose (d b : Nat) : c.Follows (c.dispose d b) := by
  unfold Change.dispose
  split
  · exact .refl _
  · split
    · split
      · exact c.follows_retire ..
      · exact Change.Follows.on (.refl c) (State.follows_joinEraseQueue ..)
    · exact .refl _

theorem Change.follows_makeStale (d b : Nat) : c.Follows (c.makeStale d b) :=
  (c.follows_updatePhys ..).trans (Change.follows_dispose ..)

theorem Change.follows_dropReader (d b : Nat) : c.Follows (c.dropReader d b) := by
  unfold Change.dropReader
  split
  · exact .refl _
  · dsimp only
    split
    · exact (c.follows_writePhys ..).trans (Change.follows_dispose ..)
    · exact c.follows_writePhys ..

theorem Change.follows_mark (d b : Nat) (w : WeakMark) : c.Follows (c.mark d b w) := c.follows_updatePhys ..

theorem Change.follows_markStale (d b : Nat) (w : WeakMark) : c.Follows (c.markStale d b w) := by
  unfold Change.markStale
  dsimp only
  split
  · exact c.follows_mark ..
  · split
    · exact (c.follows_mark ..).trans (Change.follows_retire ..)
    · exact c.follows_mark ..

theorem Change.follows_joinSpare (d b n : Nat) : c.Follows (c.joinSpare d b n) :=
  (c.follows_updatePhys ..).on (State.follows_mapDie ..)

theorem Change.follows_takeSpare {d b : Nat} {e : SpareEnd} {c' : Change} (h : c.takeSpare d e = some (b, c')) : c.Follows c' := by
  unfold Change.takeSpare at h
  split at h
  · cases h
  · cases h
    exact (c.follows_updatePhys ..).on (State.follows_mapDie ..)

theorem Change.follows_freeRelocation (d : Nat) : c.Follows (c.freeRelocation d) := by
  unfold Change.freeRelocation
  split
  · exact .refl _
  · refine Change.Follows.trans ?_ (Change.follows_updateLogical ..)
    exact Change.Follows.on (.refl c) (State.Follows.trans (State.follows_setRelocation ..) (State.follows_setWaiting ..))

theorem Change.follows_offerBack (r : Relocation) (atHead : Bool) : c.Follows (c.offerBack r atHead) := by
  unfold Change.offerBack
  split
  · exact (Change.Follows.refl c).on (State.follows_offer ..)
  · exact .refl _

theorem Change.follows_dropWaiting (d : Nat) (returns : Bool) : c.Follows (c.dropWaiting d returns) := by
  unfold Change.dropWaiting
  split
  · exact .refl _
  · dsimp only
    split
    · exact ((c.follows_freeRelocation d).trans (Change.follows_joinSpare ..)).trans (Change.follows_offerBack ..)
    · exact (c.follows_freeRelocation d).trans (Change.follows_joinSpare ..)

theorem Change.follows_cancelCopying (d : Nat) (returns : Bool) : c.Follows (c.cancelCopying d returns) := by
  unfold Change.cancelCopying
  split
  · exact .refl _
  · split
    · dsimp only
      split
      · refine Change.Follows.trans (Change.Follows.trans ?_ (Change.follows_updateLogical ..)) (Change.follows_offerBack ..)
        exact Change.Follows.on (.refl c) (State.follows_setRelocation ..)
      · refine Change.Follows.trans ?_ (Change.follows_updateLogical ..)
        exact Change.Follows.on (.refl c) (State.follows_setRelocation ..)
    · exact .refl _
    · exact .refl _

theorem Change.follows_cancelRelocation (l : Nat) (returns : Bool) : c.Follows (c.cancelRelocation l returns) := by
  unfold Change.cancelRelocation
  split
  · exact .refl _
  · split
    · exact c.follows_dropWaiting ..
    · exact c.follows_cancelCopying ..
    · exact .refl _

theorem Change.follows_freeWrite (id l : Nat) : c.Follows (c.freeWrite id l) := by
  refine Change.Follows.on (Change.Follows.trans ?_ (Change.follows_updateLogical ..)) (State.follows_triggerDie ..)
  exact Change.Follows.on (.refl c) (State.follows_freeLease ..)

theorem Change.follows_endLease (id : Nat) : c.Follows (c.endLease id) := by
  unfold Change.endLease
  split
  · exact .refl _
  · split
    · exact (Change.Follows.foldl _ (fun c _ => c.follows_dropReader ..) _ _).on (State.follows_freeLease ..)
    · exact (c.follows_makeStale ..).trans (Change.follows_freeWrite ..)

theorem Change.follows_loseCopy (d : Nat) (r : Relocation) : c.Follows (c.loseCopy d r) := by
  unfold Change.loseCopy
  have h := (c.follows_makeStale d r.destination).trans (Change.follows_freeRelocation _ d)
  dsimp only
  split
  · exact (h.trans (Change.follows_offerBack ..)).on (State.follows_triggerDie ..)
  · exact h.on (State.follows_triggerDie ..)

theorem Change.follows_loseOrder (o : Order) : c.Follows (c.loseOrder o) := by
  unfold Change.loseOrder
  split
  · exact c.follows_makeStale ..
  · split
    · exact .refl _
    · exact c.follows_loseCopy ..

theorem Change.follows_commitMapping (id l b : Nat) (r : LogicalRecord) : c.Follows (c.commitMapping id l b r) := by
  unfold Change.commitMapping
  have h := (c.follows_updateLogical l fun r => { r with block := some b, version := r.version + 1#16, risk := .none }).trans
    (Change.follows_updatePhys _ (c.s.home l) b fun x => { x with state := .mapped, owner := some l })
  dsimp only
  split
  · exact ((h.trans (Change.follows_makeStale ..)).on (State.follows_leaveRescue ..)).trans (Change.follows_freeWrite ..)
  · exact (h.on (State.follows_leaveRescue ..)).trans (Change.follows_freeWrite ..)

theorem Change.follows_discard (l : Nat) : c.Follows (c.discard l) := by
  unfold Change.discard
  have h := c.follows_cancelRelocation l false
  dsimp only
  split
  · exact h
  · exact ((h.trans (Change.follows_updateLogical ..)).trans (Change.follows_makeStale ..)).on (State.follows_leaveRescue ..)

theorem Change.follows_freeByResult (d : Nat) : c.Follows (c.freeByResult d) :=
  (c.follows_freeRelocation d).on (State.follows_triggerDie ..)

theorem Change.follows_copyOk (d : Nat) (r : Relocation) : c.Follows (c.copyOk d r) :=
  ((((c.follows_updateLogical ..).trans (Change.follows_updatePhys ..)).trans (Change.follows_makeStale ..)).on
    (State.follows_leaveRescue ..)).trans (Change.follows_freeByResult ..)

theorem Change.follows_retryCopy (d : Nat) (r : Relocation) (b : Nat) : c.Follows (c.retryCopy d r b) :=
  Change.Follows.on (.refl c)
    (State.Follows.trans (State.Follows.trans (State.follows_setRelocation ..) (State.follows_setWaiting ..)) (State.follows_considerOwner ..))

theorem Change.follows_copyProgramFail (d : Nat) (r : Relocation) : c.Follows (c.copyProgramFail d r) := by
  unfold Change.copyProgramFail
  have h := c.follows_retire d r.destination .copyFail
  have g := Change.Follows.on (f := fun s => s.triggerDie d)
    ((h.trans (Change.follows_freeRelocation _ d)).trans (Change.follows_offerBack _ r false)) (State.follows_triggerDie ..)
  dsimp only
  split
  · split
    · exact g
    · next e => exact (h.trans (Change.follows_takeSpare _ e)).trans (Change.follows_retryCopy ..)
  · exact g

theorem Change.follows_copyReadFail (d : Nat) (r : Relocation) : c.Follows (c.copyReadFail d r) :=
  ((((c.follows_makeStale ..).trans (Change.follows_mark ..)).trans (Change.follows_updateLogical ..)).on
    (State.follows_raise ..)).trans (Change.follows_freeByResult ..)

theorem Change.follows_judgeSource (d : Nat) (r : Relocation) : c.Follows (c.judgeSource d r) := by
  unfold Change.judgeSource
  split
  · exact .refl _
  · split
    · exact c.follows_markStale ..
    · exact c.follows_mark ..
    · split
      · exact (c.follows_mark ..).on (State.follows_offer ..)
      · exact .refl _
    all_goals exact .refl _

theorem Change.follows_copyCancelled (d : Nat) (r : Relocation) (x : CopyResult) : c.Follows (c.copyCancelled d r x) := by
  unfold Change.copyCancelled
  refine Change.Follows.trans ?_ (Change.follows_freeByResult ..)
  split
  · exact c.follows_makeStale ..
  · exact c.follows_retire ..
  · exact (c.follows_makeStale ..).trans (Change.follows_judgeSource ..)

theorem Change.follows_copyResult (d : Nat) (r : Relocation) (x : CopyResult) : c.Follows (c.copyResult d r x) := by
  unfold Change.copyResult
  split
  · split
    · exact c.follows_copyOk ..
    · exact c.follows_copyProgramFail ..
    · exact c.follows_copyReadFail ..
  · exact c.follows_copyCancelled ..

theorem Change.follows_eraseResult (d b : Nat) (ok : Bool) : c.Follows (c.eraseResult d b ok) := by
  unfold Change.eraseResult
  refine Change.Follows.on ?_ (State.follows_triggerDie ..)
  split
  · unfold Change.eraseOk
    split
    · exact .refl _
    · split
      · exact c.follows_joinSpare ..
      · exact c.follows_retireWith ..
  · exact c.follows_retire ..

theorem Change.follows_orderResult (o : Order) (x : OrderResult) : c.Follows (c.orderResult o x) := by
  unfold Change.orderResult
  split
  · exact c.follows_eraseResult ..
  · split
    · exact .refl _
    · exact c.follows_copyResult ..

theorem Change.follows_beginWork (o : Order) : c.Follows (c.beginWork o) := by
  unfold Change.beginWork
  split
  · split
    · exact .refl _
    · exact Change.Follows.on (.refl c) (State.Follows.trans (State.follows_setRelocation ..) (State.follows_setWaiting ..))
  · exact (c.follows_updatePhys ..).on (State.follows_mapDie ..)

theorem Change.follows_cancelAll : c.Follows c.cancelAll := Change.Follows.foldl _ (fun c _ => c.follows_cancelCopying ..) _ _

end Sys2Proof.Machine
end

