-- ==== Sys2Proof/Laws/Dies.lean ====
section
/-! SUPPORT. The derived counts of a die under the operations on its records: a write of a record moves the histograms with it, a retirement
moves the retired count, the reserve and the health, and no step of a change leaves a die out of step. -/

namespace Sys2Proof.Machine

/-! ### Histograms (R20, R21) -/

theorem wearClass_le (w : Nat) (r : PhysRecord) (c : Nat) (h : wearClass w r = some c) : c ≤ 62 := by
  unfold wearClass at h
  split at h
  · cases h
  · cases h; exact Nat.min_le_right _ _

theorem mappedClass_le (w : Nat) (r : PhysRecord) (c : Nat) (h : mappedClass w r = some c) : c ≤ 62 := by
  unfold mappedClass at h
  split at h
  · cases h; exact Nat.min_le_right _ _
  · cases h

/-- R21: the count of a class after a block moved. -/
theorem moveCount_get (h : List Nat) (old new : Option Nat) (c n : Nat) (e : h[c]? = some n) :
    (moveCount h old new)[c]? = some (if old = new then n else (n - if old = some c then 1 else 0) + if new = some c then 1 else 0) := by
  unfold moveCount
  split
  · exact e
  · cases old with
    | none =>
      cases new with
      | none => contradiction
      | some b => by_cases hb : b = c <;> simp [e, hb]
    | some a =>
      cases new with
      | none => by_cases ha : a = c <;> simp [e, ha]
      | some b => by_cases ha : a = c <;> by_cases hb : b = c <;> simp [e, ha, hb]

theorem moveCount_length (h : List Nat) (old new : Option Nat) : (moveCount h old new).length = h.length := by
  unfold moveCount
  split
  · rfl
  · cases old <;> cases new <;> simp

/-- R21: writing the record of a block and moving its count keeps a histogram in step. -/
theorem Counts.write {h : List Nat} {f : PhysRecord → Option Nat} {blocks : List PhysRecord} (k : Counts h f blocks) {b : Nat}
    {old : PhysRecord} (hb : blocks[b]? = some old) (r : PhysRecord) : Counts (moveCount h (f old) (f r)) f (blocks.set b r) := by
  refine ⟨by rw [moveCount_length]; exact k.1, fun c hc => ?_⟩
  rw [moveCount_get h _ _ c _ (k.2 c hc)]
  obtain ⟨lt, he⟩ := List.getElem?_eq_some_iff.mp hb
  rw [List.countP_set lt, he]
  have pos : f old = some c → 0 < blocks.countP fun r => f r == some c := fun g =>
    List.countP_pos_iff.mpr ⟨old, he ▸ List.getElem_mem lt, by simp [g]⟩
  congr 1
  by_cases h1 : f old = some c
  · have := pos h1
    by_cases h2 : f r = some c
    · simp [h1, h2]; omega
    · have : ¬ some c = f r := fun e => h2 e.symm
      simp [h1, h2, this]
  · by_cases h2 : f r = some c
    · simp [h1, h2]
    · by_cases h3 : f old = f r <;> simp [h1, h2, h3]

/-! ### Dies -/

variable {g : Geometry} {warn d : Nat} {x : Die}

/-- R21: a die stays in step when the record of a block is written. -/
theorem Die.Kept.writeBlock (k : x.Kept g warn d) {b : Nat} {old : PhysRecord} (hb : x.blocks[b]? = some old) (r : PhysRecord) :
    (x.writeBlock g.classWidth b old r).Kept g warn d where
  blocks := by simp [Die.writeBlock, k.blocks]
  wear := k.wear.write hb r
  mapped := k.mapped.write hb r
  reserve := k.reserve
  health := k.health
  rescue := k.rescue

/-- A die stays in step when its lists change and its rescue queue keeps its bound. -/
theorem Die.Kept.lists (k : x.Kept g warn d) (spares eraseQueue rescue : List Nat) (h : rescue.length ≤ 16 ∧ rescue.Nodup) :
    { x with spares := spares, eraseQueue := eraseQueue, rescue := rescue }.Kept g warn d where
  blocks := k.blocks
  wear := k.wear
  mapped := k.mapped
  reserve := k.reserve
  health := k.health
  rescue := h

/-- R36: a die is in step again once a retirement was counted and the health computed again. -/
theorem Die.Kept.retired (k : x.Kept g warn d) (spares eraseQueue : List Nat) :
    { x with
      spares := spares, eraseQueue := eraseQueue, retired := x.retired + 1, reserve := x.reserve - 1
      health := healthOf warn (x.reserve - 1) }.Kept g warn d where
  blocks := k.blocks
  wear := k.wear
  mapped := k.mapped
  reserve := by have := k.reserve; simp only [Nat.cast_add, Nat.cast_one]; omega
  health := rfl
  rescue := k.rescue

/-! ### States -/

variable {s : State}

/-- An update that keeps the table and SPARE_WARN keeps the dies in step. -/
theorem State.DiesKept.congr {t : State} (k : s.DiesKept) (ht : t.table = s.table) (hp : t.params = s.params) : t.DiesKept := by
  intro T h
  rw [ht] at h
  rw [hp]
  exact k T h

theorem State.die?_some {T : Table} (h : s.table = some T) (d : Nat) : s.die? d = T.dies[d]? := by simp [State.die?, h]

/-- A die changed to one that is in step. -/
theorem State.DiesKept.mapDie (k : s.DiesKept) (d : Nat) (f : Die → Die)
    (hf : ∀ x, s.die? d = some x → x.Kept s.geometry s.params.spareWarn d → (f x).Kept s.geometry s.params.spareWarn d) :
    (s.mapDie d f).DiesKept := by
  intro T h
  simp only [State.mapDie_table, Option.map_eq_some_iff] at h
  obtain ⟨U, hU, rfl⟩ := h
  have kU := k U hU
  have hg : s.geometry = U.geometry := by simp [State.geometry, hU]
  refine ⟨by simpa using kU.dies, fun e y hy => ?_⟩
  have hy : (U.dies.modify d f)[e]? = some y := hy
  rw [List.getElem?_modify, Option.map_eq_map, Option.map_eq_some_iff] at hy
  obtain ⟨x, hx, rfl⟩ := hy
  split
  · next he =>
    subst he
    have := hf x (by rw [State.die?_some hU]; exact hx) (hg ▸ kU.die d x hx)
    rw [hg] at this
    exact this
  · exact kU.die e x hx

theorem State.DiesKept.get (k : s.DiesKept) {d : Nat} {x : Die} (h : s.die? d = some x) : x.Kept s.geometry s.params.spareWarn d := by
  cases hT : s.table with
  | none => simp [State.die?, hT] at h
  | some T =>
    rw [State.die?_some hT] at h
    have := (k T hT).die d x h
    simpa [State.geometry, hT] using this

/-- A change of a die's lists that keeps the rescue queue's bound. -/
theorem State.DiesKept.lists (k : s.DiesKept) (d : Nat) (a b c : Die → List Nat)
    (h : ∀ x, s.die? d = some x → x.rescue.length ≤ 16 ∧ x.rescue.Nodup → (c x).length ≤ 16 ∧ (c x).Nodup) :
    (s.mapDie d fun x => { x with spares := a x, eraseQueue := b x, rescue := c x }).DiesKept :=
  k.mapDie d _ fun x hx kx => kx.lists _ _ _ (h x hx kx.rescue)

theorem State.DiesKept.spares (k : s.DiesKept) (d : Nat) (a : Die → List Nat) :
    (s.mapDie d fun x => { x with spares := a x }).DiesKept := k.lists d a (·.eraseQueue) (·.rescue) fun _ _ h => h

theorem State.DiesKept.eraseQueue (k : s.DiesKept) (d : Nat) (a : Die → List Nat) :
    (s.mapDie d fun x => { x with eraseQueue := a x }).DiesKept := k.lists d (·.spares) a (·.rescue) fun _ _ h => h

theorem State.DiesKept.leaveRescue (k : s.DiesKept) (l : Nat) : (s.leaveRescue l).DiesKept :=
  k.lists _ (·.spares) (·.eraseQueue) (fun x => x.rescue.filter (· != l)) fun _ _ h =>
    ⟨Nat.le_trans (List.length_filter_le ..) h.1, h.2.filter _⟩

theorem State.DiesKept.hand (k : s.DiesKept) (e : ShadowEntry) : (s.hand e).DiesKept :=
  k.congr (State.hand_table ..) (State.hand_params ..)

theorem State.DiesKept.raiseIf (k : s.DiesKept) (b : Bool) (c : Cause) : (s.raiseIf b c).DiesKept := by
  unfold State.raiseIf; split <;> exact k

/-- R75: an offer keeps the rescue queue's depth and its entries distinct. -/
theorem State.DiesKept.offer (k : s.DiesKept) (l : Nat) (atHead : Bool) : (s.offer l atHead).DiesKept := by
  unfold State.offer
  dsimp only
  split
  · exact k
  · split
    · exact k
    · next hc =>
      have fresh : ∀ x, s.die? (s.home l) = some x → l ∉ x.rescue := fun x hx => by
        simpa [State.rescue, hx] using hc
      split
      · next hl =>
        have short : ∀ x, s.die? (s.home l) = some x → x.rescue.length < 16 := fun x hx => by
          simpa [State.rescue, hx, Config.rescueDepth] using hl
        split
        · exact k.lists _ (·.spares) (·.eraseQueue) (fun x => l :: x.rescue) fun x hx h =>
            ⟨by simpa using short x hx, List.nodup_cons.mpr ⟨fresh x hx, h.2⟩⟩
        · refine State.DiesKept.congr (s := s.mapDie _ _)
            (k.lists _ (·.spares) (·.eraseQueue) (fun x => x.rescue ++ [l]) fun x hx h => ⟨?_, ?_⟩) rfl rfl
          · simpa using short x hx
          · exact List.nodup_append.mpr ⟨h.2, by simp, fun a ha b hb => by
              simp only [List.mem_singleton] at hb; subst hb; rintro rfl; exact fresh x hx ha⟩
      · exact k

theorem State.recomputeHealth_die (s : State) (d : Nat) {x : Die} (h : s.die? d = some x) :
    s.recomputeHealth d = (s.mapDie d fun y => { y with health := healthOf s.params.spareWarn x.reserve }).raiseIf
      (healthOf s.params.spareWarn x.reserve != x.health) .dieHealth := by
  unfold State.recomputeHealth; rw [h]

/-! ### The steps of a change -/

variable (c : Change)

theorem Change.dies_writeLogical (l : Nat) (r : LogicalRecord) (k : c.s.DiesKept) : (c.writeLogical l r).s.DiesKept := by
  have key : ∀ t : State, t.DiesKept → (t.mapTable fun x => { x with logical := x.logical.set l r }).DiesKept := by
    intro t kt T h
    simp only [State.mapTable_table, Option.map_eq_some_iff] at h
    obtain ⟨U, hU, rfl⟩ := h
    exact ⟨(kt U hU).dies, (kt U hU).die⟩
  unfold Change.writeLogical
  split
  · exact k
  · refine key _ ?_
    split
    · exact k
    · exact k.hand _

theorem Change.dies_updateLogical (l : Nat) (f : LogicalRecord → LogicalRecord) (k : c.s.DiesKept) :
    (c.updateLogical l f).s.DiesKept := by
  unfold Change.updateLogical
  split
  · exact k
  · exact c.dies_writeLogical _ _ k

theorem Change.dies_writePhys (d b : Nat) (r : PhysRecord) (k : c.s.DiesKept) : (c.writePhys d b r).s.DiesKept := by
  unfold Change.writePhys
  split
  · exact k
  · next old hp =>
    have key : ∀ t : State, t.table = c.s.table → t.DiesKept →
        (t.mapDie d fun x => x.writeBlock t.geometry.classWidth b old r).DiesKept := fun t ht kt =>
      kt.mapDie d _ fun x hx kx => kx.writeBlock (by
        have := (State.records_congr ht).1 d
        rw [hx] at this
        simpa [State.phys?, ← this] using hp) r
    split
    · exact key c.s rfl k
    · exact key _ (State.hand_table ..) (k.hand _)

theorem Change.dies_updatePhys (d b : Nat) (f : PhysRecord → PhysRecord) (k : c.s.DiesKept) : (c.updatePhys d b f).s.DiesKept := by
  unfold Change.updatePhys
  split
  · exact k
  · exact c.dies_writePhys _ _ _ k

theorem Change.dies_retireWith (d b : Nat) (cause : RetireCause) (n : Nat) (k : c.s.DiesKept) :
    (c.retireWith d b cause n).s.DiesKept := by
  unfold Change.retireWith
  split
  · exact k
  · next r hr =>
    have k1 := c.dies_writePhys d b
      { r with state := .retired, cause := some cause, eraseCount := n, owner := none, readers := 0 } k
    generalize c.writePhys d b _ = c1 at k1 ⊢
    simp only [Change.on]
    cases hx : c1.s.die? d with
    | none =>
      have : ∀ f, State.die? (c1.s.mapDie d f) d = none := fun f => by rw [State.mapDie_die?]; simp [hx]
      unfold State.recomputeHealth
      rw [this]
      exact k1.mapDie d _ fun x h => by rw [hx] at h; cases h
    | some x =>
      have hy : ∀ f, State.die? (c1.s.mapDie d f) d = some (f x) := fun f => by rw [State.mapDie_die?]; simp [hx]
      rw [State.recomputeHealth_die _ _ (hy _)]
      refine State.DiesKept.raiseIf ?_ _ _
      have two : ∀ f g : Die → Die, (c1.s.mapDie d f).mapDie d g = c1.s.mapDie d (g ∘ f) := fun f g => by
        unfold State.mapDie State.mapTable
        cases c1.s.table <;> simp [List.modify_modify_eq]
      rw [two]
      exact k1.mapDie d _ fun y h ky => by
        rw [hx] at h; cases h
        exact ky.retired _ _

theorem Change.dies_retire (d b : Nat) (cause : RetireCause) (k : c.s.DiesKept) : (c.retire d b cause).s.DiesKept := by
  unfold Change.retire
  split
  · exact k
  · exact c.dies_retireWith _ _ _ _ k

theorem State.DiesKept.joinEraseQueue (k : s.DiesKept) (d b : Nat) : (s.joinEraseQueue d b).DiesKept :=
  (k.eraseQueue d fun x => x.eraseQueue ++ [b]).congr rfl rfl

theorem Change.dies_dispose (d b : Nat) (k : c.s.DiesKept) : (c.dispose d b).s.DiesKept := by
  unfold Change.dispose
  split
  · exact k
  · split
    · split
      · exact c.dies_retire _ _ _ k
      · exact k.joinEraseQueue _ _
    · exact k

theorem Change.dies_makeStale (d b : Nat) (k : c.s.DiesKept) : (c.makeStale d b).s.DiesKept :=
  Change.dies_dispose _ _ _ (c.dies_updatePhys _ _ _ k)

theorem Change.dies_dropReader (d b : Nat) (k : c.s.DiesKept) : (c.dropReader d b).s.DiesKept := by
  unfold Change.dropReader
  split
  · exact k
  · dsimp only
    split
    · exact Change.dies_dispose _ _ _ (c.dies_writePhys _ _ _ k)
    · exact c.dies_writePhys _ _ _ k

theorem Change.dies_mark (d b : Nat) (w : WeakMark) (k : c.s.DiesKept) : (c.mark d b w).s.DiesKept := c.dies_updatePhys _ _ _ k

theorem Change.dies_markStale (d b : Nat) (w : WeakMark) (k : c.s.DiesKept) : (c.markStale d b w).s.DiesKept := by
  unfold Change.markStale
  dsimp only
  split
  · exact c.dies_mark _ _ _ k
  · split
    · exact Change.dies_retire _ _ _ _ (c.dies_mark _ _ _ k)
    · exact c.dies_mark _ _ _ k

theorem Change.dies_joinSpare (d b n : Nat) (k : c.s.DiesKept) : (c.joinSpare d b n).s.DiesKept :=
  State.DiesKept.spares (c.dies_updatePhys _ _ _ k) d fun x => insertSpare x.eraseCount b x.spares

theorem Change.dies_takeSpare {d b : Nat} {e : SpareEnd} {c' : Change} (h : c.takeSpare d e = some (b, c')) (k : c.s.DiesKept) :
    c'.s.DiesKept := by
  unfold Change.takeSpare at h
  split at h
  · cases h
  · cases h
    exact State.DiesKept.spares (c.dies_updatePhys _ _ _ k) d fun x => e.rest x.spares

theorem Change.dies_freeRelocation (d : Nat) (k : c.s.DiesKept) : (c.freeRelocation d).s.DiesKept := by
  unfold Change.freeRelocation
  split
  · exact k
  · exact Change.dies_updateLogical _ _ _ (k.congr rfl rfl)

theorem Change.dies_offerBack (r : Relocation) (atHead : Bool) (k : c.s.DiesKept) : (c.offerBack r atHead).s.DiesKept := by
  unfold Change.offerBack
  split
  · exact k.offer _ _
  · exact k

theorem Change.dies_dropWaiting (d : Nat) (returns : Bool) (k : c.s.DiesKept) : (c.dropWaiting d returns).s.DiesKept := by
  unfold Change.dropWaiting
  split
  · exact k
  · have h := fun b n => Change.dies_joinSpare _ d b n (c.dies_freeRelocation d k)
    dsimp only
    split
    · exact Change.dies_offerBack _ _ _ (h _ _)
    · exact h _ _

theorem Change.dies_cancelCopying (d : Nat) (returns : Bool) (k : c.s.DiesKept) : (c.cancelCopying d returns).s.DiesKept := by
  unfold Change.cancelCopying
  split
  · exact k
  · split
    · dsimp only
      split
      · exact Change.dies_offerBack _ _ _ (Change.dies_updateLogical _ _ _ (k.congr rfl rfl))
      · exact Change.dies_updateLogical _ _ _ (k.congr rfl rfl)
    · exact k
    · exact k

theorem Change.dies_cancelRelocation (l : Nat) (returns : Bool) (k : c.s.DiesKept) : (c.cancelRelocation l returns).s.DiesKept := by
  unfold Change.cancelRelocation
  split
  · exact k
  · split
    · exact c.dies_dropWaiting _ _ k
    · exact c.dies_cancelCopying _ _ k
    · exact k

theorem Change.dies_freeWrite (id l : Nat) (k : c.s.DiesKept) : (c.freeWrite id l).s.DiesKept :=
  State.DiesKept.congr (Change.dies_updateLogical (c.on fun s => s.setLease id none) _ _ (k.congr rfl rfl)) rfl rfl

theorem Change.dies_foldl {α : Type} (f : Change → α → Change) (h : ∀ (c : Change) (a : α), c.s.DiesKept → (f c a).s.DiesKept)
    (l : List α) (c : Change) (k : c.s.DiesKept) : (l.foldl f c).s.DiesKept := by
  induction l generalizing c with
  | nil => exact k
  | cons a l ih => exact ih _ (h _ _ k)

theorem Change.dies_endLease (id : Nat) (k : c.s.DiesKept) : (c.endLease id).s.DiesKept := by
  unfold Change.endLease
  split
  · exact k
  · split
    · exact (Change.dies_foldl _ (fun c _ k => c.dies_dropReader _ _ k) _ _ k).congr rfl rfl
    · exact Change.dies_freeWrite _ _ _ (c.dies_makeStale _ _ k)

theorem Change.dies_endLeaseWithNotice (kind : NoticeKind) (id : Nat) (k : c.s.DiesKept) :
    (c.endLeaseWithNotice kind id).s.DiesKept := by
  unfold Change.endLeaseWithNotice
  split
  · exact k
  · exact (c.dies_endLease _ k).congr rfl rfl

theorem Change.dies_loseCopy (d : Nat) (r : Relocation) (k : c.s.DiesKept) : (c.loseCopy d r).s.DiesKept := by
  unfold Change.loseCopy
  have h := Change.dies_freeRelocation _ d (c.dies_makeStale d r.destination k)
  dsimp only
  split
  · exact (Change.dies_offerBack _ _ _ h).congr rfl rfl
  · exact h.congr rfl rfl

theorem Change.dies_loseOrder (o : Order) (k : c.s.DiesKept) : (c.loseOrder o).s.DiesKept := by
  unfold Change.loseOrder
  split
  · exact c.dies_makeStale _ _ k
  · split
    · exact k
    · exact c.dies_loseCopy _ _ k

theorem State.DiesKept.oweDrainCheck (k : s.DiesKept) : s.oweDrainCheck.DiesKept := by
  unfold State.oweDrainCheck; split <;> exact k

theorem Change.dies_losePort (p : PortId) (cause : LossCause) (link : LinkState) (k : c.s.DiesKept) :
    (c.losePort p cause link).s.DiesKept :=
  State.DiesKept.oweDrainCheck (Change.dies_foldl _ (fun c _ k => c.dies_loseOrder _ k) _ _
    (Change.dies_foldl _ (fun c _ k => c.dies_endLease _ k) _ _ (k.congr rfl rfl)))

theorem Change.dies_commitMapping (id l b : Nat) (r : LogicalRecord) (k : c.s.DiesKept) : (c.commitMapping id l b r).s.DiesKept := by
  unfold Change.commitMapping
  have h := Change.dies_updatePhys _ (c.s.home l) b (fun x => { x with state := .mapped, owner := some l })
    (c.dies_updateLogical l (fun r => { r with block := some b, version := r.version + 1#16, risk := .none }) k)
  dsimp only
  split
  · exact Change.dies_freeWrite _ _ _ (State.DiesKept.leaveRescue (Change.dies_makeStale _ _ _ h) _)
  · exact Change.dies_freeWrite _ _ _ (State.DiesKept.leaveRescue h _)

theorem Change.dies_discard (l : Nat) (k : c.s.DiesKept) : (c.discard l).s.DiesKept := by
  unfold Change.discard
  have h := c.dies_cancelRelocation l false k
  dsimp only
  split
  · exact h
  · exact State.DiesKept.leaveRescue (Change.dies_makeStale _ _ _ (Change.dies_updateLogical _ _ _ h)) _

theorem Change.dies_freeByResult (d : Nat) (k : c.s.DiesKept) : (c.freeByResult d).s.DiesKept :=
  State.DiesKept.congr (c.dies_freeRelocation d k) rfl rfl

theorem Change.dies_leaveRescue (l : Nat) (k : c.s.DiesKept) : (c.on fun s => s.leaveRescue l).s.DiesKept := State.DiesKept.leaveRescue k l

theorem Change.dies_copyOk (d : Nat) (r : Relocation) (k : c.s.DiesKept) : (c.copyOk d r).s.DiesKept := by
  unfold Change.copyOk
  have h := Change.dies_makeStale _ d r.source (Change.dies_updatePhys _ d r.destination
    (fun x => { x with state := .mapped, owner := some r.logical })
    (c.dies_updateLogical r.logical (fun x => { x with block := some r.destination, version := x.version + 1#16 }) k))
  exact Change.dies_freeByResult _ _ (Change.dies_leaveRescue _ _ h)

theorem Change.dies_copyProgramFail (d : Nat) (r : Relocation) (k : c.s.DiesKept) : (c.copyProgramFail d r).s.DiesKept := by
  have h := c.dies_retire d r.destination .copyFail k
  have g : ((((c.retire d r.destination .copyFail).freeRelocation d).offerBack r false).on fun s => s.triggerDie d).s.DiesKept :=
    State.DiesKept.congr (Change.dies_offerBack _ r false (Change.dies_freeRelocation _ d h)) rfl rfl
  unfold Change.copyProgramFail
  dsimp only
  split
  · split
    · exact g
    · next e => exact State.DiesKept.congr (Change.dies_takeSpare _ e h) rfl rfl
  · exact g

theorem Change.dies_copyReadFail (d : Nat) (r : Relocation) (k : c.s.DiesKept) : (c.copyReadFail d r).s.DiesKept := by
  unfold Change.copyReadFail
  have h := Change.dies_updateLogical _ r.logical (fun x => { x with risk := .unreadable })
    (Change.dies_mark _ d r.source .port (c.dies_makeStale d r.destination k))
  exact Change.dies_freeByResult _ _ (State.DiesKept.congr h rfl rfl)

theorem Change.dies_judgeSource (d : Nat) (r : Relocation) (k : c.s.DiesKept) : (c.judgeSource d r).s.DiesKept := by
  unfold Change.judgeSource
  split
  · exact k
  · split
    · exact Change.dies_markStale _ _ _ _ k
    · exact Change.dies_mark _ _ _ _ k
    · split
      · exact State.DiesKept.offer (Change.dies_mark _ _ _ _ k) _ _
      · exact k
    all_goals exact k

theorem Change.dies_copyCancelled (d : Nat) (r : Relocation) (x : CopyResult) (k : c.s.DiesKept) :
    (c.copyCancelled d r x).s.DiesKept := by
  unfold Change.copyCancelled
  refine Change.dies_freeByResult _ _ ?_
  split
  · exact c.dies_makeStale _ _ k
  · exact c.dies_retire _ _ _ k
  · exact Change.dies_judgeSource _ _ _ (c.dies_makeStale d r.destination k)

theorem Change.dies_copyResult (d : Nat) (r : Relocation) (x : CopyResult) (k : c.s.DiesKept) : (c.copyResult d r x).s.DiesKept := by
  unfold Change.copyResult
  split
  · split
    · exact c.dies_copyOk _ _ k
    · exact c.dies_copyProgramFail _ _ k
    · exact c.dies_copyReadFail _ _ k
  · exact c.dies_copyCancelled _ _ _ k

theorem Change.dies_eraseResult (d b : Nat) (ok : Bool) (k : c.s.DiesKept) : (c.eraseResult d b ok).s.DiesKept := by
  unfold Change.eraseResult
  refine State.DiesKept.congr (s := (if ok then c.eraseOk d b else c.retire d b .eraseFail).s) ?_ rfl rfl
  split
  · unfold Change.eraseOk
    split
    · exact k
    · split
      · exact c.dies_joinSpare _ _ _ k
      · exact c.dies_retireWith _ _ _ _ k
  · exact c.dies_retire _ _ _ k

theorem Change.dies_orderResult (o : Order) (x : OrderResult) (k : c.s.DiesKept) : (c.orderResult o x).s.DiesKept := by
  unfold Change.orderResult
  split
  · exact c.dies_eraseResult _ _ _ k
  · split
    · exact k
    · exact c.dies_copyResult _ _ _ k

theorem Change.dies_beginWork (o : Order) (k : c.s.DiesKept) : (c.beginWork o).s.DiesKept := by
  unfold Change.beginWork
  split
  · split
    · exact k
    · exact k.congr rfl rfl
  · exact State.DiesKept.eraseQueue (c.dies_updatePhys _ _ _ k) _ fun x => x.eraseQueue.tail

theorem Change.dies_revokeAll (k : c.s.DiesKept) : c.revokeAll.s.DiesKept :=
  Change.dies_foldl _ (fun c _ k => c.dies_endLeaseWithNotice _ _ k) _ _ k

theorem Change.dies_cancelAll (k : c.s.DiesKept) : c.cancelAll.s.DiesKept :=
  Change.dies_foldl _ (fun c _ k => c.dies_cancelCopying _ _ k) _ _ k

/-- R22: completing a change keeps the dies in step. -/
theorem Change.dies_finish (k : c.s.DiesKept) : c.finish.DiesKept := by
  unfold Change.finish; split <;> exact k

end Sys2Proof.Machine
end

