-- ==== Sys2Proof/Laws/Changes.lean ====
section
/-! SUPPORT. The steps of a change in explicit form: on a table whose records they touch are known, what state and mark each one leaves. -/

namespace Sys2Proof.Machine

/-! ### Handing (R168, R169) -/

/-- R168: nothing more is done when the record of `e` is handed: no save runs, or it is delivered, or shadowed. -/
def SaveSweep.Settled (g : Geometry) (v : SaveSweep) (e : ShadowEntry) : Prop :=
  v.status ≠ .running ∨ e.index g < v.position ∨ v.shadow.any e.sameRecord = true

/-- What handing records that satisfy `P` does to a save, and the causes it raises. -/
def SaveSweep.Handed (P : ShadowEntry → Prop) (v w : SaveSweep) (h : CauseSet) : Prop :=
  (v.status ≠ .running → w = v ∧ h = 0#5) ∧ w.size = v.size ∧ w.header = v.header ∧ w.position = v.position ∧ w.sum = v.sum
    ∧ (w.status = v.status ∧ h = 0#5 ∧ (∃ more, w.shadow = v.shadow ++ more ∧ ∀ e ∈ more, P e)
      ∨ w.status = .shadowFull ∧ w.shadow = [] ∧ h = 0b01000#5)

/-- R168: an entry is `e`, of a record not yet delivered in `s`. -/
def State.Once (s : State) (e x : ShadowEntry) : Prop := x = e ∧ s.save.position ≤ e.index s.geometry

theorem SaveSweep.Handed.refl (P : ShadowEntry → Prop) (v : SaveSweep) : v.Handed P v 0#5 :=
  ⟨fun _ => ⟨rfl, rfl⟩, rfl, rfl, rfl, rfl, .inl ⟨rfl, rfl, [], by simp, by simp⟩⟩

theorem SaveSweep.Handed.mono {P Q : ShadowEntry → Prop} {v w : SaveSweep} {h : CauseSet} (a : v.Handed P w h) (pq : ∀ e, P e → Q e) :
    v.Handed Q w h := by
  obtain ⟨a1, a2, a3, a4, a5, a6⟩ := a
  refine ⟨a1, a2, a3, a4, a5, ?_⟩
  rcases a6 with ⟨x, y, more, z, k⟩ | x
  · exact .inl ⟨x, y, more, z, fun e m => pq e (k e m)⟩
  · exact .inr x

theorem SaveSweep.Handed.trans {P : ShadowEntry → Prop} {u v w : SaveSweep} {g h : CauseSet} (a : u.Handed P v g) (b : v.Handed P w h) :
    u.Handed P w (g ||| h) := by
  obtain ⟨a1, a2, a3, a4, a5, a6⟩ := a
  obtain ⟨b1, b2, b3, b4, b5, b6⟩ := b
  refine ⟨fun n => ?_, b2.trans a2, b3.trans a3, b4.trans a4, b5.trans a5, ?_⟩
  · obtain ⟨rfl, rfl⟩ := a1 n
    obtain ⟨rfl, rfl⟩ := b1 n
    exact ⟨rfl, rfl⟩
  · rcases a6 with ⟨x, rfl, m, e, k⟩ | ⟨x, e, rfl⟩
    · rcases b6 with ⟨y, rfl, m', e', k'⟩ | ⟨y, e', rfl⟩
      · refine .inl ⟨y.trans x, rfl, m ++ m', by rw [e', e, List.append_assoc], fun z hz => ?_⟩
        rcases List.mem_append.mp hz with hz | hz
        · exact k z hz
        · exact k' z hz
      · exact .inr ⟨y, e', rfl⟩
    · obtain ⟨rfl, rfl⟩ := b1 (by rw [x]; decide)
      exact .inr ⟨x, e, rfl⟩

/-- A change that handed records as they stand in `s` meets `State.Saves`. -/
theorem SaveSweep.Handed.saves {s : State} {w : SaveSweep} {h : CauseSet}
    (a : s.save.Handed (fun e => e.Holds s ∧ s.save.position ≤ e.index s.geometry) w h) : s.Saves w (s.attention ||| h) := by
  obtain ⟨a1, a2, a3, a4, a5, a6⟩ := a
  refine ⟨fun n => ⟨(a1 n).1, by rw [(a1 n).2]; simp⟩, a2, a3, a4, a5, ?_⟩
  rcases a6 with ⟨x, rfl, m⟩ | ⟨x, e, rfl⟩
  · exact .inl ⟨x, by simp, m⟩
  · exact .inr ⟨x, e, rfl⟩

/-- R168, R169: handing a record. -/
theorem State.hand_handed (s : State) (e : ShadowEntry) :
    ∃ v h, s.save.Handed (s.Once e) v h ∧ v.Settled s.geometry e ∧ (s.save.Settled s.geometry e → v = s.save ∧ h = 0#5)
      ∧ s.hand e = { s with save := v, attention := s.attention ||| h } := by
  unfold State.hand
  split
  · next n => exact ⟨s.save, 0#5, .refl _ _, .inl n, fun _ => ⟨rfl, rfl⟩, by simp⟩
  · next r =>
    have r : s.save.status = .running := by simpa using r
    split
    · next n => exact ⟨s.save, 0#5, .refl _ _, .inr (.inl n), fun _ => ⟨rfl, rfl⟩, by simp⟩
    · next le =>
      split
      · next n => exact ⟨s.save, 0#5, .refl _ _, .inr (.inr n), fun _ => ⟨rfl, rfl⟩, by simp⟩
      · next fresh =>
        have ns : ¬s.save.Settled s.geometry e := by rintro (a | a | a) <;> contradiction
        have self : e.sameRecord e = true := by cases e <;> simp [ShadowEntry.sameRecord, ShadowEntry.isLogical, ShadowEntry.isPhysical]
        split
        · refine ⟨{ s.save with shadow := s.save.shadow ++ [e] }, 0#5, ⟨fun n => absurd r n, rfl, rfl, rfl, rfl,
            .inl ⟨rfl, rfl, [e], rfl, fun x hx => ⟨by simpa using hx, Nat.le_of_not_lt le⟩⟩⟩, .inr (.inr ?_), fun a => absurd a ns, by simp⟩
          simp [self]
        · exact ⟨{ s.save with status := .shadowFull, shadow := [] }, 0b01000#5,
            ⟨fun n => absurd r n, rfl, rfl, rfl, rfl, .inr ⟨rfl, rfl, rfl⟩⟩, .inl (by simp), fun a => absurd a ns, rfl⟩

/-! ### Records -/

variable {c : Change} {t : Table} {l d b : Nat} {r : LogicalRecord} {x : Die} {y : PhysRecord}

theorem State.logical?_of {s : State} (ht : s.table = some t) (l : Nat) : s.logical? l = t.logical[l]? := by simp [State.logical?, ht]

theorem State.phys?_of {s : State} (ht : s.table = some t) (hx : t.dies[d]? = some x) (b : Nat) : s.phys? d b = x.blocks[b]? := by
  simp [State.phys?, State.die?, ht, hx]

theorem State.die?_of {s : State} (ht : s.table = some t) (hx : t.dies[d]? = some x) : s.die? d = some x := by
  simp [State.die?, ht, hx]

theorem State.geometry_of {s : State} (ht : s.table = some t) : s.geometry = t.geometry := by simp [State.geometry, ht]

theorem State.home_of {s : State} (ht : s.table = some t) (l : Nat) : s.home l = t.geometry.home l := by
  simp [State.home, State.geometry_of ht]

/-- A die changed, its contents known. -/
theorem State.mapDie_of {s : State} (ht : s.table = some t) (hx : t.dies[d]? = some x) (f : Die → Die) :
    s.mapDie d f = { s with table := some { t with dies := t.dies.set d (f x) } } := by
  unfold State.mapDie State.mapTable
  simp only [ht, Option.map_some]
  congr 3
  obtain ⟨lt, rfl⟩ := List.getElem?_eq_some_iff.mp hx
  apply List.ext_getElem?
  intro i
  rw [List.getElem?_modify, List.getElem?_set]
  by_cases e : d = i <;> simp [e]
  subst e; simp [lt]

/-- R3, R22: a logical record written. -/
theorem Change.writeLogical_of (ht : c.s.table = some t) (hl : t.logical[l]? = some r) (r' : LogicalRecord) :
    ∃ v h, c.s.save.Handed (c.s.Once (.logical l r.toLogicalFields)) v h ∧ (r.toLogicalFields = r'.toLogicalFields → v = c.s.save ∧ h = 0#5)
      ∧ c.writeLogical l r' = ⟨{ c.s with
          table := some { t with logical := t.logical.set l r' }, save := v, attention := c.s.attention ||| h },
        c.altered || decide (r.toLogicalFields ≠ r'.toLogicalFields)⟩ := by
  unfold Change.writeLogical
  rw [State.logical?_of ht, hl]
  dsimp only
  split
  · next e => exact ⟨c.s.save, 0#5, .refl _ _, fun _ => ⟨rfl, rfl⟩, by simp [Change.on, State.mapTable, ht, e]⟩
  · next e =>
    obtain ⟨v, h, hh, -, -, eq⟩ := State.hand_handed c.s (.logical l r.toLogicalFields)
    exact ⟨v, h, hh, fun n => absurd n e, by simp [Change.on, Change.alter, State.mapTable, eq, ht, e]⟩

/-- R8, R21, R22: a physical record written. -/
theorem Change.writePhys_of (ht : c.s.table = some t) (hx : t.dies[d]? = some x) (hb : x.blocks[b]? = some y) (r' : PhysRecord) :
    ∃ v h, c.s.save.Handed (c.s.Once (.physical d b y.toPhysFields)) v h ∧ (y.toPhysFields = r'.toPhysFields → v = c.s.save ∧ h = 0#5)
      ∧ (y.toPhysFields ≠ r'.toPhysFields → v.Settled t.geometry (.physical d b y.toPhysFields))
      ∧ (c.s.save.Settled t.geometry (.physical d b y.toPhysFields) → v = c.s.save ∧ h = 0#5)
      ∧ c.writePhys d b r' = ⟨{ c.s with
          table := some { t with dies := t.dies.set d (x.writeBlock t.geometry.classWidth b y r') }
          save := v
          attention := c.s.attention ||| h },
        c.altered || decide (y.toPhysFields ≠ r'.toPhysFields)⟩ := by
  unfold Change.writePhys
  rw [State.phys?_of ht hx, hb]
  dsimp only
  split
  · next e =>
    refine ⟨c.s.save, 0#5, .refl _ _, fun _ => ⟨rfl, rfl⟩, fun n => absurd e n, fun _ => ⟨rfl, rfl⟩, ?_⟩
    simp only [Change.on, State.mapDie_of ht hx, State.geometry_of ht]
    simp [e]
  · next e =>
    obtain ⟨v, h, hh, st, sd, eq⟩ := State.hand_handed c.s (.physical d b y.toPhysFields)
    rw [State.geometry_of ht] at st sd
    refine ⟨v, h, hh, fun n => absurd n e, fun _ => st, sd, ?_⟩
    have ht' : State.table { c.s with save := v, attention := c.s.attention ||| h } = some t := ht
    simp only [Change.on, Change.alter, eq]
    rw [State.geometry_of ht', State.mapDie_of ht' hx]
    simp [e]

theorem Change.updateLogical_of (ht : c.s.table = some t) (hl : t.logical[l]? = some r) (f : LogicalRecord → LogicalRecord) :
    c.updateLogical l f = c.writeLogical l (f r) := by
  unfold Change.updateLogical; rw [State.logical?_of ht, hl]

theorem Change.updatePhys_of (ht : c.s.table = some t) (hx : t.dies[d]? = some x) (hb : x.blocks[b]? = some y)
    (f : PhysRecord → PhysRecord) : c.updatePhys d b f = c.writePhys d b (f y) := by
  unfold Change.updatePhys; rw [State.phys?_of ht hx, hb]

/-- A write that alters no recorded field, in explicit form. -/
theorem Change.writeLogical_links (ht : c.s.table = some t) (hl : t.logical[l]? = some r) {r' : LogicalRecord}
    (e : r.toLogicalFields = r'.toLogicalFields) :
    c.writeLogical l r' = ⟨{ c.s with table := some { t with logical := t.logical.set l r' } }, c.altered⟩ := by
  obtain ⟨v, h, -, k, eq⟩ := Change.writeLogical_of ht hl r'
  obtain ⟨rfl, rfl⟩ := k e
  rw [eq]; simp [e]

/-- R168: what is handed of a logical record is what it holds. -/
theorem State.Once.holds_logical {s : State} {e : ShadowEntry} (ht : s.table = some t) (hl : t.logical[l]? = some r)
    (h : s.Once (.logical l r.toLogicalFields) e) : e.Holds s ∧ s.save.position ≤ e.index s.geometry := by
  obtain ⟨rfl, h⟩ := h
  exact ⟨by simp [ShadowEntry.Holds, State.logical?_of ht, hl], h⟩

/-- R168: what is handed of a physical record is what it holds. -/
theorem State.Once.holds_physical {s : State} {e : ShadowEntry} (ht : s.table = some t) (hx : t.dies[d]? = some x)
    (hb : x.blocks[b]? = some y) (h : s.Once (.physical d b y.toPhysFields) e) : e.Holds s ∧ s.save.position ≤ e.index s.geometry := by
  obtain ⟨rfl, h⟩ := h
  exact ⟨by simp [ShadowEntry.Holds, State.phys?_of ht hx, hb], h⟩

/-! ### Moves that keep a block's class -/

theorem wearClass_state {w : Nat} (y : PhysRecord) {s : PhysState} (a : y.state ≠ .fixed) (b : y.state ≠ .retired)
    (c : s ≠ .fixed) (e : s ≠ .retired) {o : Option Nat} {n : Nat} {m : Option WeakMark} :
    wearClass w { y with state := s, owner := o, readers := n, weak := m } = wearClass w y := by
  simp [wearClass, a, b, c, e]

theorem moveCount_same (h : List Nat) (c : Option Nat) : moveCount h c c = h := by simp [moveCount]

/-- R21: a block between two states that are neither FIXED, MAPPED nor RETIRED moves no count. -/
theorem Die.writeBlock_unmoved (x : Die) {w : Nat} (y r : PhysRecord) (e : y.eraseCount = r.eraseCount)
    (a : y.state ≠ .fixed ∧ y.state ≠ .retired ∧ y.state ≠ .mapped) (c : r.state ≠ .fixed ∧ r.state ≠ .retired ∧ r.state ≠ .mapped) :
    x.writeBlock w b y r = { x with blocks := x.blocks.set b r } := by
  simp [Die.writeBlock, wearClass, mappedClass, a, c, e, moveCount]

/-- R21: a block that keeps state and count moves no count. -/
theorem Die.writeBlock_same (x : Die) {w : Nat} (y r : PhysRecord) (e : y.eraseCount = r.eraseCount) (a : y.state = r.state) :
    x.writeBlock w b y r = { x with blocks := x.blocks.set b r } := by
  simp [Die.writeBlock, wearClass, mappedClass, a, e, moveCount]

theorem getElem?_set_of {α : Type} {xs : List α} {i : Nat} {a : α} (h : xs[i]? = some a) (b : α) : (xs.set i b)[i]? = some b := by
  obtain ⟨lt, -⟩ := List.getElem?_eq_some_iff.mp h
  simp [lt]

/-! ### Health and retirement -/

theorem State.recomputeHealth_of {s : State} (ht : s.table = some t) (hx : t.dies[d]? = some x) :
    s.recomputeHealth d = State.raiseIf { s with
        table := some { t with dies := t.dies.set d { x with health := healthOf s.params.spareWarn x.reserve } } }
      (healthOf s.params.spareWarn x.reserve != x.health) .dieHealth := by
  rw [State.recomputeHealth_die s d (State.die?_of ht hx), State.mapDie_of ht hx]

/-- R36: a retirement. -/
theorem Change.retireWith_of (ht : c.s.table = some t) (hx : t.dies[d]? = some x) (hb : x.blocks[b]? = some y) (cause : RetireCause)
    (n : Nat) (ne : y.state ≠ .retired) :
    ∃ v h, c.s.save.Handed (c.s.Once (.physical d b y.toPhysFields)) v h
      ∧ (c.s.save.Settled t.geometry (.physical d b y.toPhysFields) → v = c.s.save ∧ h = 0#5) ∧ c.retireWith d b cause n =
      ⟨State.raiseIf { c.s with
          table := some { t with dies := t.dies.set d (x.withRetired t.geometry.classWidth c.s.params.spareWarn b y cause n) }
          save := v
          attention := c.s.attention ||| h }
        (healthOf c.s.params.spareWarn (x.reserve - 1) != x.health) .dieHealth, true⟩ := by
  unfold Change.retireWith
  rw [State.phys?_of ht hx, hb]
  dsimp only
  obtain ⟨v, h, hh, -, -, sd, eq⟩ := Change.writePhys_of ht hx hb
    { y with state := .retired, cause := some cause, eraseCount := n, owner := none, readers := 0 }
  refine ⟨v, h, hh, sd, ?_⟩
  have al : decide (y.toPhysFields ≠ ({ y with state := .retired, cause := some cause, eraseCount := n, owner := none, readers := 0 } :
      PhysRecord).toPhysFields) = true := by
    simp only [ne_eq, decide_not, Bool.not_eq_eq_eq_not, Bool.not_true, decide_eq_false_iff_not]
    intro e; exact ne (congrArg PhysFields.state e)
  rw [eq, al]
  have hset := getElem?_set_of hx
  simp only [Change.on, Bool.or_true]
  rw [State.mapDie_of rfl (hset _), State.recomputeHealth_of rfl (getElem?_set_of (hset _) _)]
  simp [Die.withRetired, Die.writeBlock]

theorem Change.retire_of (ht : c.s.table = some t) (hx : t.dies[d]? = some x) (hb : x.blocks[b]? = some y) (cause : RetireCause) :
    c.retire d b cause = c.retireWith d b cause y.eraseCount := by
  unfold Change.retire; rw [State.phys?_of ht hx, hb]

/-! ### Stale blocks (R16) -/

/-- R16: a block enters STALE and is disposed of. -/
theorem Change.makeStale_of (ht : c.s.table = some t) (hx : t.dies[d]? = some x) (hb : x.blocks[b]? = some y) (ne : y.state ≠ .stale) :
    ∃ v h, c.s.save.Handed (c.s.Once (.physical d b y.toPhysFields)) v h ∧ c.makeStale d b =
      ⟨State.disposed { c.s with
          table := some { t with dies := t.dies.set d (x.withStale t.geometry.classWidth c.s.params.spareWarn b y) }
          save := v
          attention := c.s.attention ||| h }
        d y x.health (x.withStale t.geometry.classWidth c.s.params.spareWarn b y).health, true⟩ := by
  unfold Change.makeStale
  rw [Change.updatePhys_of ht hx hb]
  obtain ⟨v, h, hh, -, st, -, eq⟩ := Change.writePhys_of ht hx hb { y with state := .stale, owner := none }
  have differ : y.toPhysFields ≠ ({ y with state := .stale, owner := none } : PhysRecord).toPhysFields :=
    fun e => ne (congrArg PhysFields.state e)
  have al := decide_eq_true differ
  rw [eq, al]
  simp only [Bool.or_true]
  have hset := getElem?_set_of hx (x.writeBlock t.geometry.classWidth b y { y with state := .stale, owner := none })
  have hb' : (x.writeBlock t.geometry.classWidth b y { y with state := .stale, owner := none }).blocks[b]?
      = some { y with state := .stale, owner := none } := getElem?_set_of hb _
  unfold Change.dispose
  rw [State.phys?_of rfl hset, hb']
  dsimp only
  by_cases hr : y.readers = 0
  · rw [if_pos hr]
    rcases Option.eq_none_or_eq_some y.weak with hw | ⟨m, hw⟩
    · simp only [hw] at hset hb' ⊢
      refine ⟨v, h, hh, ?_⟩
      simp only [Change.on, State.joinEraseQueue]
      rw [State.mapDie_of rfl hset]
      simp [State.disposed, Die.withStale, hr, hw, State.raiseIf, Die.writeBlock]
    · simp only [hw] at hset hb' ⊢
      rw [Change.retire_of rfl hset hb']
      let x' := x.writeBlock t.geometry.classWidth b y { y with state := .stale, owner := none, weak := some m }
      have k := Change.retireWith_of (c := ⟨{ c.s with
          table := some { t with dies := t.dies.set d x' }
          save := v
          attention := c.s.attention ||| h }, true⟩) rfl hset hb' m.retireCause y.eraseCount (by simp)
      obtain ⟨v', h', -, sd, eq'⟩ := k
      obtain ⟨rfl, rfl⟩ := sd (st differ)
      refine ⟨_, h, hh, ?_⟩
      rw [eq']
      cases m <;> simp [x', State.disposed, Die.withStale, hr, hw, WeakMark.retireCause, Die.withRetired, Die.writeBlock]
  · rw [if_neg hr]
    exact ⟨v, h, hh, by simp [State.disposed, Die.withStale, hr, State.raiseIf, Die.writeBlock]⟩

/-! ### Spares (R14, R18, R28, R29) -/

/-- R14, R29: the block at an end of the spare list is taken. -/
theorem Change.takeSpare_of (ht : c.s.table = some t) (hx : t.dies[d]? = some x) {e : SpareEnd} (hp : e.pick x.spares = some b)
    (hb : x.blocks[b]? = some y) (sp : y.state = .spare) :
    let x' : Die := { x with blocks := x.blocks.set b { y with state := .allocated }, spares := e.rest x.spares }
    ∃ v h, c.s.save.Handed (c.s.Once (.physical d b y.toPhysFields)) v h ∧ c.takeSpare d e = some (b, ⟨{ c.s with
        table := some { t with dies := t.dies.set d x' }
        save := v
        attention := c.s.attention ||| h }, true⟩) := by
  intro x'
  unfold Change.takeSpare
  have hs : c.s.spares d = x.spares := by simp [State.spares, State.die?_of ht hx]
  rw [hs, hp]
  dsimp only
  rw [Change.updatePhys_of ht hx hb]
  obtain ⟨v, h, hh, -, -, -, eq⟩ := Change.writePhys_of ht hx hb { y with state := .allocated }
  refine ⟨v, h, hh, ?_⟩
  have al : decide (y.toPhysFields ≠ ({ y with state := .allocated } : PhysRecord).toPhysFields) = true := by
    simp only [ne_eq, decide_not, Bool.not_eq_eq_eq_not, Bool.not_true, decide_eq_false_iff_not]
    intro e; rw [congrArg PhysFields.state e] at sp; cases sp
  rw [eq, al, Die.writeBlock_unmoved x y { y with state := .allocated } rfl (by simp [sp]) (by simp)]
  have hset := getElem?_set_of hx { x with blocks := x.blocks.set b { y with state := .allocated } }
  simp only [Change.on, Bool.or_true]
  rw [State.mapDie_of rfl hset]
  simp [x']

/-- R18, R28: a block becomes SPARE and joins its die's spare list. -/
theorem Change.joinSpare_of (ht : c.s.table = some t) (hx : t.dies[d]? = some x) (hb : x.blocks[b]? = some y) (n : Nat)
    (ne : y.state ≠ .spare) :
    let z := x.writeBlock t.geometry.classWidth b y { y with state := .spare, eraseCount := n, owner := none }
    ∃ v h, c.s.save.Handed (c.s.Once (.physical d b y.toPhysFields)) v h ∧ c.joinSpare d b n = ⟨{ c.s with
        table := some { t with dies := t.dies.set d { z with spares := insertSpare z.eraseCount b x.spares } }
        save := v
        attention := c.s.attention ||| h }, true⟩ := by
  intro z
  unfold Change.joinSpare
  rw [Change.updatePhys_of ht hx hb]
  obtain ⟨v, h, hh, -, -, -, eq⟩ := Change.writePhys_of ht hx hb { y with state := .spare, eraseCount := n, owner := none }
  refine ⟨v, h, hh, ?_⟩
  have al : decide (y.toPhysFields ≠ ({ y with state := .spare, eraseCount := n, owner := none } : PhysRecord).toPhysFields) = true := by
    simp only [ne_eq, decide_not, Bool.not_eq_eq_eq_not, Bool.not_true, decide_eq_false_iff_not]
    intro e; exact ne (congrArg PhysFields.state e)
  rw [eq, al]
  have hset := getElem?_set_of hx z
  simp only [Change.on, Bool.or_true]
  rw [State.mapDie_of rfl hset]
  simp [z, Die.writeBlock]

/-! ### Ports and drain checks -/

/-- R144: owing a drain check, in one form. -/
theorem State.oweDrainCheck_eq (s : State) :
    s.oweDrainCheck = { s with drainCheckDue := s.drainCheckDue || s.tableState == .draining } := by
  obtain ⟨⟩ := s
  simp only [State.oweDrainCheck]
  split <;> simp_all

/-- Two updates of ports that commute on a port commute. -/
theorem State.mapPort_comm (s : State) (p q : PortId) (f g : Port → Port) (h : ∀ x, f (g x) = g (f x)) :
    (s.mapPort p f).mapPort q g = (s.mapPort q g).mapPort p f := by
  obtain ⟨p, hp⟩ := p
  obtain ⟨q, hq⟩ := q
  unfold State.mapPort
  by_cases e : p = q
  · subst e; simp [h]
  · simp [e, Ne.symm e, Vector.set_comm _ _ e]

/-- R103: an answer placed before or after a port is to be considered. -/
theorem State.place_consider (s : State) (p q : PortId) (f : OutFrame) : (s.consider q).place p f = (s.place p f).consider q :=
  s.mapPort_comm q p _ _ fun _ => rfl

/-! ### Leases and relocations -/

/-- R51: a write lease is freed. -/
theorem Change.freeWrite_of (ht : c.s.table = some t) (hl : t.logical[l]? = some r) (id : Nat) :
    c.freeWrite id l = ⟨State.triggerDie { c.s with
        leases := c.s.leases.setIfInBounds id none
        table := some { t with logical := t.logical.set l { r with writeLease := none } } } (t.geometry.home l), c.altered⟩ := by
  have ht' : (c.on fun s => s.setLease id none).s.table = some t := ht
  unfold Change.freeWrite
  rw [Change.updateLogical_of ht' hl, Change.writeLogical_links ht' hl (r' := { r with writeLease := none }) rfl]
  simp only [Change.on]
  rw [State.home_of rfl]
  rfl

/-- R79: a relocation is freed. -/
theorem Change.freeRelocation_of (ht : c.s.table = some t) {m : Relocation} (hm : c.s.relocation? d = some m)
    (hl : t.logical[m.logical]? = some r) :
    c.freeRelocation d = ⟨{ c.s with
        relocations := c.s.relocations.setIfInBounds d none
        waiting := c.s.waiting.filter (· != d)
        table := some { t with logical := t.logical.set m.logical { r with relocating := false } } }, c.altered⟩ := by
  unfold Change.freeRelocation
  rw [hm]
  dsimp only
  have ht' : (c.on fun s => (s.setRelocation d none).setWaiting (s.waiting.filter (· != d))).s.table = some t := ht
  rw [Change.updateLogical_of ht' hl, Change.writeLogical_links ht' hl (r' := { r with relocating := false }) rfl]
  rfl

/-- R75: an offer that neither merges nor finds the queue full. -/
theorem State.offer_of {s : State} (ht : s.table = some t) (hx : t.dies[t.geometry.home l]? = some x) (ha : s.activeRelocation l = none)
    (atHead : Bool) :
    s.offer l atHead =
      if l ∈ x.rescue then s
      else if x.rescue.length < 16 then
        if atHead then { s with table := some { t with dies := t.dies.set (t.geometry.home l) { x with rescue := l :: x.rescue } } }
        else State.triggerDie { s with
          table := some { t with dies := t.dies.set (t.geometry.home l) { x with rescue := x.rescue ++ [l] } } } (t.geometry.home l)
      else s.raise .dataAtRisk := by
  have hr : s.rescue (t.geometry.home l) = x.rescue := by simp [State.rescue, State.die?_of ht hx]
  unfold State.offer
  rw [State.home_of ht, ha]
  dsimp only
  rw [hr]
  simp only [List.contains_iff_mem]
  by_cases h1 : l ∈ x.rescue
  · rw [if_pos h1, if_pos h1]
  · rw [if_neg h1, if_neg h1]
    by_cases h2 : x.rescue.length < 16
    · rw [if_pos h2, if_pos h2]
      simp only [State.mapDie_of ht hx]
    · rw [if_neg h2, if_neg h2]

/-- R77: an entry leaves its rescue queue. -/
theorem State.leaveRescue_of {s : State} (ht : s.table = some t) (hx : t.dies[t.geometry.home l]? = some x) :
    s.leaveRescue l = { s with
      table := some { t with dies := t.dies.set (t.geometry.home l) { x with rescue := x.rescue.filter (· != l) } } } := by
  unfold State.leaveRescue
  rw [State.home_of ht, State.mapDie_of ht hx]

end Sys2Proof.Machine
end

