-- ==== Sys2Proof/Tests/Slice0.lean ====
section
/-! SUPPORT. Tests: the check of well-formedness refuses an ill-formed command of each kind, frames read from bytes written out from
chapter 10, one small step of each kind of command, and for every statement that has hypotheses a state and operands that meet them. -/

namespace Sys2Proof.Tests

set_option Elab.async false -- one proof at a time: each evaluates in the kernel

open Sys2Proof.Machine

/-! ### Well-formedness, one refusal for each check -/

theorem test_frame_of_19_words_is_ill_formed : (Instr.frameArrival 0 ⟨0#32, List.replicate 19 0#32, 0#32⟩).wellFormed = false := by decide
theorem test_frame_of_18_words_is_well_formed : (Instr.frameArrival 0 ⟨0#32, List.replicate 18 0#32, 0#32⟩).wellFormed = true := by decide

/-- R174: a frame whose bytes sum to 0 is no BAD_FRAME. -/
theorem test_good_frame_is_no_badFrame : (Instr.badFrame 0x01#8 [] 0xFF#8).wellFormed = false := by decide
theorem test_damaged_frame_is_badFrame : (Instr.badFrame 0x01#8 [] 0xFE#8).wellFormed = true := by decide

/-- R189: a frame that suits a row is no UNKNOWN_COMMAND. -/
theorem test_known_frame_is_no_unknownCommand : (Instr.unknownCommand 0x14#8 [0x01#8]).wellFormed = false := by decide
theorem test_unlisted_form_is_unknownCommand : (Instr.unknownCommand 0x14#8 [0x02#8]).wellFormed = true := by decide

/-- Section 10.2: a length field of two bytes names no payload of 65536 bytes. -/
theorem test_long_lists_are_ill_formed (b : Byte) (n : Byte × Half) (w : Word) :
    (Instr.markBad (List.replicate 21846 n)).wellFormed = false ∧ (Instr.loadData (List.replicate 16384 w)).wellFormed = false
      ∧ (Instr.unknownCommand 0xFF#8 (List.replicate 65536 b)).wellFormed = false
      ∧ (Instr.badFrame 0xFF#8 (List.replicate 65536 b) 0x00#8).wellFormed = false := by
  refine ⟨?_, ?_, ?_, ?_⟩ <;> rw [Instr.wellFormed, List.length_replicate] <;> rfl

/-! ### Frames written out from the spec -/

/-- 10.1.1, 10.1.3: kind 05, length 1, tag 3C; lease id 07, result 01. -/
theorem test_read_commit_frame :
    let f : Frame := ⟨0b00000000_00111100_00000001_00000101#32, [0b00000000_00000000_00000001_00000111#32], 0#32⟩
    f.request = some .commit ∧ f.tag = 0x3C#8 ∧ f.byte0 = 0x07#8 ∧ f.byte1 = 0x01#8 := by decide

/-- 10.1.3: OPEN_READ of L 1234h, n 10h; ORDER_DONE of tag 05, epoch 02, status 03; REPORT_WEAK of die 06, block 0155h. -/
theorem test_read_request_fields :
    (let f : Frame := ⟨0x00010103#32, [0b00000000_00010000_00010010_00110100#32], 0#32⟩
     f.request = some .openRead ∧ f.low = 0x1234#16 ∧ f.byte2 = 0x10#8)
    ∧ (let f : Frame := ⟨0x0001010A#32, [0b00000000_00000011_00000010_00000101#32], 0#32⟩
       f.request = some .orderDone ∧ f.byte0 = 0x05#8 ∧ f.byte1 = 0x02#8 ∧ f.byte2 = 0x03#8)
    ∧ (let f : Frame := ⟨0x00010109#32, [0b00000001_01010101_00000000_00000110#32], 0#32⟩
       f.request = some .reportWeak ∧ f.byte0 = 0x06#8 ∧ f.high = 0x0155#16) := by decide

/-- R118, 10.1.1: a HELLO of tag 9 with its check word; one bit wrong and it fails. -/
theorem test_frame_check : framePasses ⟨0x00090001#32, [], 0xFFF6FFFF#32⟩ = true ∧ framePasses ⟨0x00090001#32, [], 0xFFF6FFFE#32⟩ = false := by
  decide

/-- 10.2: FORMAT 2, 64, 100, 1, 4 as its bytes: opcode, length, fields least significant byte first, check. -/
theorem test_read_format_frame :
    commandOfFrame 0x12#8 [0x02#8, 0x40#8, 0x00#8, 0x64#8, 0x00#8, 0x01#8, 0x00#8, 0x04#8] 0x3B#8
      = .format 2#8 64#16 100#16 1#16 4#8 := by decide

/-- 10.2: SET_PARAM LEASE_LIMIT 2000, MARK_BAD 0:17, PORT_CONTROL 3 ENABLE, GO_OFFLINE with FORCE. -/
theorem test_read_command_frames :
    commandOfFrame 0x04#8 [0x04#8, 0x00#8, 0xD0#8, 0x07#8, 0x00#8, 0x00#8] 0x1B#8 = .setParam 0x04#8 0x00#8 2000#32
    ∧ commandOfFrame 0x10#8 [0x00#8, 0x11#8, 0x00#8] 0xDC#8 = .markBad [(0#8, 17#16)]
    ∧ commandOfFrame 0x21#8 [0x03#8, 0x01#8] 0xD9#8 = .portEnable 0x03#8
    ∧ commandOfFrame 0x14#8 [0x01#8] 0xEA#8 = .goOfflineForce
    ∧ commandOfFrame 0x14#8 [0x02#8] 0xE9#8 = .unknownCommand 0x14#8 [0x02#8]
    ∧ commandOfFrame 0x14#8 [0x01#8] 0xEB#8 = .badFrame 0x14#8 [0x01#8] 0xEB#8 := by decide

/-- The table gives no row any bits. -/
theorem test_no_row_has_bits : decodeTableWord 0 0 = none := rfl


/-! ### Small states -/

/-- A physical record. -/
def blk (st : PhysState) (n : Nat) (owner : Option Nat := none) (readers : Nat := 0) (weak : Option WeakMark := none) : PhysRecord :=
  ⟨⟨st, n, weak, none⟩, owner, readers⟩

/-- A logical record of risk NONE without links. -/
def lrec (b : Option Nat) (v : Half) : LogicalRecord := ⟨⟨b, v, .none⟩, none, false⟩

/-- A die of eight blocks: one of each of the states FIXED (two), MAPPED (two), SPARE (two), ALLOCATED and STALE. -/
def die : Die where
  blocks := [blk .fixed 0, blk .fixed 0, blk .mapped 0 (some 0), blk .spare 1, blk .spare 9, blk .allocated 2, blk .stale 3,
    blk .mapped 0 (some 1)]
  wear := [5, 0, 1] ++ List.replicate 60 0 ++ [2]
  mapped := 2 :: List.replicate 63 0
  spares := [3, 4]
  eraseQueue := [6]
  retired := 0
  reserve := 3
  initialReserve := 3
  health := .good
  rescue := []

/-- Three logical blocks on one die: 0 in block 2, 1 in block 7, 2 UNMAPPED. The versions and the generation stand where they wrap. -/
def tab : Table := ⟨⟨1, 8, 3, 4⟩, [lrec (some 2) 0xFFFF#16, lrec (some 7) 0#16, lrec none 5#16], [die]⟩

/-- ONLINE with that table, port 0 UP under epoch 1. -/
def base : State :=
  { State.reset with
    tableState := .online
    table := some tab
    generation := 0xFFFFFFFF#32
    params := { Params.reset with spareWarn := 2 }
    ports := State.reset.ports.set 0 { Port.reset with link := .up, epoch := 1#8 } }

def setBlk (s : State) (b : Nat) (y : PhysRecord) : State := s.mapDie 0 fun x => { x with blocks := x.blocks.set b y }
def setLog (s : State) (l : Nat) (r : LogicalRecord) : State := s.mapTable fun t => { t with logical := t.logical.set l r }
/-- A request at the head of port 0's FIFO. -/
def asks (s : State) (f : Frame) : State := s.mapPort 0 fun x => { x with fifo := [f] }
def request (kind : RequestKind) (tag b0 b1 : Byte) (h : Half) : Frame := mkFrame kind.code tag [h ++ b1 ++ b0]
def ready (s : State) : State := { s with phase := .command }
/-- Port 0 has issued this order. -/
def ordered (s : State) (o : Order) : State := s.mapPort 0 fun x => { x with orders := x.orders ++ [o] }

def writeLease : Lease := ⟨0, 0x21#8, .write 0 5 1, some 1⟩
/-- Port 0 holds write lease 0 on logical block 0, destination 5. -/
def writing : State := (setLog base 0 { lrec (some 2) 0xFFFF#16 with writeLease := some 0 }).setLease 0 (some writeLease)
def readLease : Lease := ⟨0, 0x22#8, .read [⟨1, 0, 7, 0#16⟩], some 1⟩
/-- Port 0 holds read lease 63 on logical block 1. -/
def reading : State := setBlk (base.setLease 63 (some readLease)) 7 (blk .mapped 0 (some 1) 1)
/-- Every lease id is held by port 1. -/
def crowded : State := { base with leases := Vector.replicate 64 (some ⟨1, 0#8, .read [], none⟩) }
def relocation (st : RelocationState) : Relocation := ⟨.rescue, 0, 2, 5, 1, st⟩
/-- Logical block 0 is being relocated from block 2 to block 5. -/
def relocating (st : RelocationState) : State :=
  (setLog base 0 { lrec (some 2) 0xFFFF#16 with relocating := st == .waitSlot || st == .copying 0x40#8 1#8 }).setRelocation 0
    (some (relocation st))
def copyOrder : Order := ⟨0, .copy 2 5, 0, 0x40#8, 1#8, 1⟩
def eraseOrder : Order := ⟨0, .erase 6, 0, 0x41#8, 1#8, 5⟩
/-- Block 6 is being erased under an order of port 0. -/
def erasing (weak : Option WeakMark) : State := setBlk (ordered base eraseOrder) 6 (blk .erasing 16777215 none 0 weak)
/-- A relocation whose COPY order port 0 has. -/
def copying (st : RelocationState) : State := ordered (relocating st) copyOrder

/-- The leases of a state, one by one. -/
theorem leases_all (s : State) (P : Nat → Lease → Prop) (h : ∀ id < 64, ∀ l ∈ s.lease? id, P id l) :
    ∀ (id : Nat) (l : Lease), s.lease? id = some l → P id l := by
  intro id l e
  by_cases a : id < 64
  · exact h id a l e
  · simp [State.lease?, a] at e

/-- The relocations of a state, one by one. -/
theorem relocations_all (s : State) (P : Nat → Relocation → Prop) (h : ∀ d < 8, ∀ r ∈ s.relocation? d, P d r) :
    ∀ (d : Nat) (r : Relocation), s.relocation? d = some r → P d r := by
  intro d r e
  by_cases a : d < 8
  · exact h d a r e
  · simp [State.relocation?, a] at e

theorem no_leases {s : State} (h : s.leases = Vector.replicate 64 none) (id : Nat) : s.lease? id = none := by
  by_cases a : id < 64 <;> simp [State.lease?, h, a]

theorem no_relocations {s : State} (h : s.relocations = Vector.replicate 8 none) (d : Nat) : s.relocation? d = none := by
  by_cases a : d < 8 <;> simp [State.relocation?, h, a]

/-! ### Witnesses: steps, order of commands, maintenance (the name after `witness_` is the statement's) -/

/-- Lease 0 has 2 ms left, lease 5 no timer, and an order 2 ms. -/
def ticking : State :=
  ordered ((writing.setLease 0 (some { writeLease with expiry := some 2 })).setLease 5 (some { readLease with expiry := none }))
    { eraseOrder with timer := 2 }

theorem witness_EmptyQueueStepIsAMillisecond :
    (ticking.pending = [] ∧ (∀ (id : Nat) (l : Lease), ticking.lease? id = some l → l.expiry ≠ some 0 ∧ l.expiry ≠ some 1)
      ∧ ∀ (p : PortId) (o : Order), o ∈ ticking.ports[p].orders → 2 ≤ o.timer)
    ∧ (writing.lease? 0 = some writeLease ∧ writeLease.expiry = some 1)
    ∧ (copying .waitSlot).ports[(0 : PortId)].link = .up ∧ copyOrder ∈ (copying .waitSlot).ports[(0 : PortId)].orders ∧ copyOrder.timer = 1 :=
  ⟨⟨rfl, leases_all _ _ (by decide +kernel), by decide +kernel⟩, by decide +kernel, by decide +kernel⟩

theorem witness_EveryCommandRuns : (Instr.markBad [(7#8, 1023#16)]).wellFormed = true := by decide

theorem witness_CommandOutOfTurnChangesNothing :
    State.reset.arbiterChoice ≠ some 0
    ∧ ((Instr.loadData [1#32]).wellFormed = true ∧ commandFrame (.loadData [1#32]) = some (0x19#8, [1#8, 0#8, 0#8, 0#8])
      ∧ State.reset.phase ≠ .command)
    ∧ (ready base).phase ≠ .turnaround ∧ base.ports[(3 : PortId)].link ≠ .up ∧ writing.lease? 63 = none
    ∧ (erasing none).ports[(0 : PortId)].hasOrder 0x40#8 = false ∧ base.busy.code ≠ 0x01#8 ∧ base.load.phase ≠ .checking := by decide +kernel

theorem witness_ArbiterTakesTheFirstEligiblePort : { base with lastServed := some 3 }.lastServed = some 3 ∧ base.lastServed = none := by
  decide

theorem witness_TransactionsAndRefusedFrames :
    ((ready base).phase = .command ∧ commandPasses 0x01#8 [] 0xFE#8 = false)
    ∧ suits 0x01#8 1 = false ∧ suits 0x16#8 0 = false
    ∧ ((ready base).Ready ∧ formListed 0x14#8 [0x02#8] = false ∧ formListed 0x21#8 [0x00#8, 0x02#8] = false)
    ∧ commandPasses 0x01#8 [] 0xFF#8 = true ∧ (suits 0x14#8 1 = true ∧ formListed 0x14#8 [0x01#8] = true)
    ∧ { base with phase := .turnaround }.phase = .turnaround := by unfold State.Ready; decide +kernel

/-- A FORMAT runs. -/
def busy : State := { ready State.reset with tableState := .formatting, busy := .format ⟨⟨2, 64, 3, 2048⟩, 4⟩ }

theorem witness_BusyPartAnswersBusy :
    busy.phase = .command ∧ busy.busy ≠ .none ∧ Instr.mapReset.wellFormed = true ∧ commandFrame .mapReset = some (0x15#8, [])
      ∧ suits 0x15#8 0 = true := by decide +kernel

theorem witness_CommandOfItsFrame :
    (Instr.setParam 0x08#8 0x00#8 0x1F#32).wellFormed = true
      ∧ commandFrame (.setParam 0x08#8 0x00#8 0x1F#32) = some (0x04#8, [0x08#8, 0x00#8, 0x1F#8, 0x00#8, 0x00#8, 0x00#8]) := by decide

theorem witness_IdentifyAnswersTheFixedValues : busy.phase = .command := rfl

theorem witness_GetStatusAnswersTheWholePart :
    (busy.phase = .command ∧ busy.table = none) ∧ (ready base).phase = .command ∧ (ready base).table = some tab := by decide +kernel

theorem witness_AckAttnClearsTheNamedCauses : busy.phase = .command := rfl

theorem witness_ParametersAreSetAndRead :
    ((ready base).Ready ∧ (65#32).toNat ≥ 65 ∧ (64#32).toNat ≤ 64 ∧ (ready State.reset).table = none ∧ (ready State.reset).Ready)
    ∧ (ready base).table = some tab ∧ tab.dies.length = tab.geometry.dieCount
    ∧ (0x00#8 = 0x00#8 ∧ 9 ≤ (0x09#8).toNat) := by unfold State.Ready; decide +kernel

/-- Logical block 1's block is weak and its entry stands in the rescue queue. -/
def weakened : State := setBlk (base.mapDie 0 fun x => { x with rescue := [1] }) 7 (blk .mapped 0 (some 1) 0 (some .host))

theorem witness_TranslateReportsTheRecord :
    (busy.tableState.hasTable = false ∧ (ready busy).phase = .command)
    ∧ ((ready base).Ready ∧ (ready base).tableState.hasTable = true ∧ (ready base).table = some tab
      ∧ tab.logical.length = tab.geometry.logicalCount ∧ tab.geometry.logicalCount ≤ (3#16).toNat)
    ∧ ((ready base).logical? 2 = some (lrec none 5#16) ∧ (ready base).home 2 = 0)
    ∧ ((ready writing).Ready ∧ (ready writing).logical? 0 = some { lrec (some 2) 0xFFFF#16 with writeLease := some 0 }
      ∧ (ready writing).phys? 0 2 = some (blk .mapped 0 (some 0)) ∧ (ready writing).lease? 0 = some writeLease)
    ∧ (ready (relocating .waitSlot)).Ready ∧ (ready (relocating .waitSlot)).relocation? 0 = some (relocation .waitSlot)
    ∧ (relocation .waitSlot).active = true
    ∧ ((ready (relocating .waitSlot)).logical? 0).map (·.relocating) = some true := by unfold State.Ready; decide +kernel

theorem witness_ReadBlockReportsTheState :
    ((ready State.reset).Ready ∧ (ready State.reset).tableState.hasTable = false)
    ∧ ((ready base).Ready ∧ (ready base).tableState.hasTable = true ∧ (ready base).phys? 0 8 = none ∧ (ready base).phys? 1 0 = none)
    ∧ ((ready base).phys? 0 1 = some (blk .fixed 0) ∧ (ready base).phys? 0 3 = some (blk .spare 1)
      ∧ (ready base).phys? 0 2 = some (blk .mapped 0 (some 0)) ∧ (ready base).phys? 0 6 = some (blk .stale 3)
      ∧ (ready base).phys? 0 5 = some (blk .allocated 2))
    ∧ ((ready writing).lease? 0 = some writeLease ∧ writeLease.body = .write 0 5 1 ∧ (ready writing).home 0 = 0)
    ∧ (∀ (id : Nat) (y : Lease) (l attempt : Nat), (ready base).lease? id = some y → y.body = .write l 5 attempt → (ready base).home l ≠ 0)
    ∧ ((ready (erasing none)).phys? 0 6 = some (blk .erasing 16777215) ∧ eraseOrder ∈ (ready (erasing none)).ports[(0 : PortId)].orders
      ∧ eraseOrder.die = 0 ∧ eraseOrder.work = .erase 6)
    ∧ (setBlk base 6 ⟨⟨.retired, 9, some .port, some .weak⟩, none, 0⟩).phys? 0 6 = some ⟨⟨.retired, 9, some .port, some .weak⟩, none, 0⟩ := by
  refine ⟨by unfold State.Ready; decide +kernel, by unfold State.Ready; decide +kernel, by decide +kernel, by decide +kernel, ?_, by decide +kernel,
    by decide +kernel⟩
  intro id y l a h
  have e : (ready base).lease? id = none := no_leases rfl id
  rw [e] at h
  cases h

theorem witness_InquiriesOfDiesAndPorts :
    ((ready State.reset).Ready ∧ (ready State.reset).tableState.hasTable = false)
    ∧ ((ready base).Ready ∧ (ready base).tableState.hasTable = true ∧ (ready base).die? 1 = none ∧ (ready base).die? 0 = some die)
    ∧ 4 ≤ (4#8).toNat ∧ (ready base).geometry.dieCount ≤ 8 := by unfold State.Ready; decide +kernel

/-- Port 0 in this link state. -/
def linked (l : LinkState) : State := base.mapPort 0 fun x => { x with link := l }

theorem witness_PortsThatAreNotUp :
    ((ready (linked .disabled)).Ready ∧ (ready (linked .disabled)).ports[(0 : PortId)].link = .disabled)
    ∧ ((ready (linked .down)).Ready ∧ (ready (linked .down)).ports[(0 : PortId)].link = .down)
    ∧ (ready base).Ready ∧ (ready base).ports[(0 : PortId)].link = .up ∧ 4 ≤ (4#8).toNat := by unfold State.Ready; decide +kernel

/-- The factory bad list is one entry short of full. -/
def listed : State := ready { base with badList := (List.range 255).map fun n => ⟨0, n⟩ }

theorem witness_FactoryBadList : listed.Ready ∧ listed.badList.length ≤ 256 := by unfold State.Ready; decide +kernel

def formatArgs (minSpares : Nat) : FormatArgs := ⟨⟨2, 64, 3, 2048⟩, minSpares⟩
def formatting (a : FormatArgs) (bad : List BlockName) : State := { State.reset with tableState := .formatting, busy := .format a, badList := bad }

theorem witness_FormatStartsAndFails :
    (ready State.reset).Ready
    ∧ ((formatting (formatArgs 4) [⟨1, 1⟩, ⟨0, 63⟩, ⟨2, 0⟩]).busy = .format (formatArgs 4) ∧ (1 : Nat) < (formatArgs 4).geometry.dieCount
      ∧ (⟨1, 1⟩ : BlockName) ∈ (formatting (formatArgs 4) [⟨1, 1⟩, ⟨0, 63⟩, ⟨2, 0⟩]).badList
      ∧ ∀ n ∈ (formatting (formatArgs 4) [⟨1, 1⟩, ⟨0, 63⟩, ⟨2, 0⟩]).badList, n.die < 2 → n.block < 2 → 1 < n.die ∨ 1 = n.die ∧ 1 ≤ n.block)
    ∧ (formatting (formatArgs 60) [⟨0, 63⟩, ⟨2, 0⟩]).busy = .format (formatArgs 60)
    ∧ (∀ n ∈ (formatting (formatArgs 60) [⟨0, 63⟩, ⟨2, 0⟩]).badList, n.die < 2 → 2 ≤ n.block)
    ∧ ¬(formatArgs 60).geometry.homed 0 + 60
        ≤ (List.range 64).countP fun b => decide (2 ≤ b) && !(formatting (formatArgs 60) [⟨0, 63⟩, ⟨2, 0⟩]).badList.contains ⟨0, b⟩ := by
  unfold State.Ready; decide +kernel

theorem witness_FormatBuildsTheTable :
    let s := formatting (formatArgs 4) [⟨0, 63⟩, ⟨2, 0⟩, ⟨1, 64⟩]
    s.busy = .format (formatArgs 4) ∧ (∀ n ∈ s.badList, n.die < 2 → 2 ≤ n.block)
      ∧ ∀ d < 2, (formatArgs 4).geometry.homed d + 4
          ≤ ((List.range 64).filter fun b => decide (2 ≤ b) && !s.badList.contains ⟨d, b⟩).length := by decide +kernel

/-- The table is OFFLINE. -/
def offline : State := ready { base with tableState := .offline }

theorem witness_GoOnlineStartsTheTable : offline.Ready ∧ offline.tableState = .offline := by unfold State.Ready; decide +kernel

/-- Logical block 0's relocation waits for its order. -/
def awaiting : State := ready { relocating .waitSlot with waiting := [0] }
def draining (s : State) : State := { s with tableState := .draining, drainKind := .plain, drainCheckDue := true }

theorem witness_DrainStartsAndEnds :
    (offline.Ready ∧ offline.tableState ≠ .online)
    ∧ ((ready base).Ready ∧ (ready base).tableState = .online ∧ (∀ (d : Nat) (r : Relocation), (ready base).relocation? d = some r → r.state ≠ .waitSlot)
      ∧ (∀ id : Nat, (ready base).lease? id = none) ∧ ∀ p : PortId, (ready base).ports[p].orders = [])
    ∧ (writing.lease? 0 ≠ none ∧ (erasing none).ports[(0 : PortId)].orders ≠ [])
    ∧ (awaiting.Ready ∧ awaiting.tableState = .online
      ∧ (∀ (d : Nat) (r : Relocation), awaiting.relocation? d = some r → r.state = .waitSlot → awaiting.home r.logical = d)
      ∧ awaiting.relocation? 0 = some (relocation .waitSlot) ∧ awaiting.phys? 0 5 = some (blk .allocated 2)
      ∧ awaiting.logical? 0 = some { lrec (some 2) 0xFFFF#16 with relocating := true })
    ∧ ((draining base).drainCheckDue = true ∧ (draining base).tableState = .draining ∧ (∀ id : Nat, (draining base).lease? id = none)
      ∧ ∀ p : PortId, (draining base).ports[p].orders = [])
    ∧ (draining writing).lease? 0 ≠ none ∧ base.drainCheckDue = false := by
  refine ⟨by unfold State.Ready; decide +kernel, ⟨by unfold State.Ready; decide +kernel, rfl, relocations_all _ _ (by decide +kernel), no_leases rfl, by decide +kernel⟩,
    by decide +kernel, ⟨by unfold State.Ready; decide +kernel, by decide +kernel, relocations_all _ _ (by decide +kernel), by decide +kernel, by decide +kernel, by decide +kernel⟩,
    ⟨rfl, rfl, no_leases rfl, by decide +kernel⟩, by decide +kernel, rfl⟩

/-! ### A state with something of everything, in which every invariant holds, and one with nothing -/

/-- A die of 64 blocks, 52 of them RETIRED: a relocation's source (2, weak) and destination (5), an ERASING block (6), a write lease's
destination (8), three blocks with a reader (7 MAPPED, 9 STALE, 10 STALE and weak), one to be erased (11), two spares. -/
def fullDie : Die where
  blocks := [blk .fixed 0, blk .fixed 0, blk .mapped 0 (some 0) 0 (some .port), blk .spare 1, blk .spare 9, blk .allocated 2, blk .erasing 3,
    blk .mapped 0 (some 1) 1, blk .allocated 1, blk .stale 0 none 1, blk .stale 0 none 1 (some .host), blk .stale 0]
    ++ List.replicate 52 ⟨⟨.retired, 0, none, some .factory⟩, none, 0⟩
  wear := [9, 0, 1] ++ List.replicate 60 0 ++ [2]
  mapped := 2 :: List.replicate 63 0
  spares := [3, 4]
  eraseQueue := [11]
  retired := 52
  reserve := 7
  initialReserve := 7
  health := .good
  rescue := []

def fullRead : Lease := ⟨0, 0x22#8, .read [⟨1, 0, 7, 0#16⟩, ⟨2, 0, 9, 0#16⟩, ⟨2, 0, 10, 1#16⟩], some 1⟩
def fullWrite : Lease := ⟨0, 0x21#8, .write 2 8 1, some 1⟩
def active (st : RelocationState) : Bool := st == .waitSlot || st == .copying 0x40#8 1#8
def fullTable (st : RelocationState) : Table :=
  ⟨⟨1, 64, 3, 4⟩, [{ lrec (some 2) 0xFFFF#16 with relocating := active st }, lrec (some 7) 0#16,
    { lrec none 5#16 with writeLease := some 0 }], [fullDie]⟩

/-- ONLINE and ready for a command, port 0 UP with write lease 0, read lease 63, an ERASE order, and a relocation in this state; port 1 is UP
and holds nothing. -/
def full (st : RelocationState) : State :=
  { ready base with
    pending := [.linkLoss 0]
    table := some (fullTable st)
    leases := (base.leases.set 0 (some fullWrite)).set 63 (some fullRead)
    relocations := base.relocations.set 0 (some (relocation st))
    waiting := if st = .waitSlot then [0] else []
    ports := (base.ports.set 0 { base.ports[(0 : PortId)] with
      orders := { eraseOrder with slot := 1 } :: if st = .waitSlot then [] else [copyOrder] }).set 1 { Port.reset with link := .up } }

def three : List RelocationState := [.waitSlot, .copying 0x40#8 1#8, .cancelled 0x40#8 1#8]

section
variable {st : RelocationState} (h : st ∈ three)
include h

theorem three_cases : st = .waitSlot ∨ st = .copying 0x40#8 1#8 ∨ st = .cancelled 0x40#8 1#8 := by simpa [three] using h

omit h in
theorem full_die {d : Nat} {x : Die} (e : (full st).die? d = some x) : d = 0 ∧ x = fullDie := by
  match d, e with
  | 0, e => exact ⟨rfl, (Option.some.inj e).symm⟩

omit h in
theorem full_phys {d b : Nat} {y : PhysRecord} (e : (full st).phys? d b = some y) : d = 0 ∧ b < 64 ∧ fullDie.blocks[b]? = some y := by
  match d, e with
  | 0, e => exact ⟨rfl, (List.getElem?_eq_some_iff.mp e).1, e⟩

omit h in
theorem full_logical {l : Nat} {r : LogicalRecord} (e : (full st).logical? l = some r) :
    (l = 0 ∧ r = { lrec (some 2) 0xFFFF#16 with relocating := active st }) ∨ (l = 1 ∧ r = lrec (some 7) 0#16)
      ∨ (l = 2 ∧ r = { lrec none 5#16 with writeLease := some 0 }) := by
  match l, e with
  | 0, e => exact .inl ⟨rfl, (Option.some.inj e).symm⟩
  | 1, e => exact .inr (.inl ⟨rfl, (Option.some.inj e).symm⟩)
  | 2, e => exact .inr (.inr ⟨rfl, (Option.some.inj e).symm⟩)

omit h in
theorem full_lease : ∀ (id : Nat) (x : Lease), (full st).lease? id = some x → (id = 0 ∧ x = fullWrite) ∨ (id = 63 ∧ x = fullRead) :=
  leases_all _ _ (show ∀ id < 64, ∀ x ∈ (full .waitSlot).lease? id, (id = 0 ∧ x = fullWrite) ∨ (id = 63 ∧ x = fullRead) by decide +kernel)

theorem full_relocation : ∀ (d : Nat) (r : Relocation), (full st).relocation? d = some r → d = 0 ∧ r = relocation st := by
  rcases three_cases h with rfl | rfl | rfl <;> exact relocations_all _ _ (by decide +kernel)

omit h in
theorem full_home (l : Nat) : (full st).home l = 0 := Nat.mod_one l

omit h in
theorem full_takes {id d b : Nat} : (full st).LeaseTakes id d b ↔ id = 0 ∧ d = 0 ∧ b = 8 := by
  constructor
  · rintro ⟨x, l, n, e, w, rfl⟩
    rcases full_lease _ _ e with ⟨rfl, rfl⟩ | ⟨rfl, rfl⟩
    · cases w; exact ⟨rfl, full_home _, rfl⟩
    · cases w
  · rintro ⟨rfl, rfl, rfl⟩; exact ⟨fullWrite, 2, 1, rfl, rfl, full_home _⟩

theorem full_moves {d b : Nat} : (full st).RelocationTakes d b ↔ d = 0 ∧ b = 5 := by
  constructor
  · rintro ⟨r, e, rfl⟩
    obtain ⟨rfl, rfl⟩ := full_relocation h _ _ e
    exact ⟨rfl, rfl⟩
  · rintro ⟨rfl, rfl⟩; exact ⟨relocation st, by rcases three_cases h with rfl | rfl | rfl <;> rfl, rfl⟩

omit h in
theorem full_blocks (p : PhysState) (bs : List Nat) (c : ∀ b < 64, ((fullDie.blocks[b]?).any fun y => y.state == p) = decide (b ∈ bs)) (k : ∀ b ∈ bs, b < 64) {d b : Nat} :
    (∃ y, (full st).phys? d b = some y ∧ y.state = p) ↔ d = 0 ∧ b ∈ bs := by
  constructor
  · rintro ⟨y, e, w⟩
    obtain ⟨rfl, a, e⟩ := full_phys e
    have := c b a
    rw [e] at this
    exact ⟨rfl, by simpa [w] using this.symm⟩
  · rintro ⟨rfl, w⟩
    have := c b (k b w)
    rw [decide_eq_true w, Option.any_eq_true] at this
    obtain ⟨y, e, q⟩ := this
    exact ⟨y, e, by simpa using q⟩

omit h in
theorem full_lists : fullDie.ListsKept where
  record := by
    have : ∀ b < 64, ∀ r ∈ fullDie.blocks[b]?, (r.state = .fixed ↔ b < 2) ∧ (r.state = .fixed → r.eraseCount = 0) ∧ r.eraseCount ≤ 16777215
        ∧ (r.weak ≠ none → r.state ≠ .fixed ∧ r.state ≠ .spare ∧ r.state ≠ .allocated) := by decide +kernel
    have also : ∀ b < 64, ∀ r ∈ fullDie.blocks[b]?, (r.cause ≠ none ↔ r.state = .retired) ∧ (r.owner ≠ none ↔ r.state = .mapped) := by
      decide +kernel
    have more : ∀ b < 64, ∀ r ∈ fullDie.blocks[b]?, (r.readers ≠ 0 → r.state = .mapped ∨ r.state = .stale) ∧ (r.state = .stale → r.weak ≠ none → r.readers ≠ 0) := by decide +kernel
    intro b r e
    have k := (List.getElem?_eq_some_iff.mp e).1
    obtain ⟨a1, a2, a3, a4⟩ := this b k r e
    obtain ⟨a5, a6⟩ := also b k r e
    obtain ⟨a7, a8⟩ := more b k r e
    exact ⟨⟨a1, a2, a3, a4, a5⟩, a6, a7, a8⟩
  spares b := by
    have := full_blocks (st := .waitSlot) .spare [3, 4] (by decide +kernel) (by decide) (d := 0) (b := b)
    exact ⟨fun q => this.mpr ⟨rfl, q⟩, fun q => (this.mp q).2⟩
  order := by decide +kernel
  queue b := by
    constructor
    · rintro q
      obtain rfl : b = 11 := by simpa [fullDie] using q
      exact ⟨_, rfl, rfl, rfl⟩
    · rintro ⟨y, e, q⟩
      exact (show ∀ b < 64, ∀ y ∈ fullDie.blocks[b]?, y.state = .stale ∧ y.readers = 0 → b ∈ fullDie.eraseQueue by decide +kernel) b
        (List.getElem?_eq_some_iff.mp e).1 y e q
  queueOnce := by decide
  retired := by decide +kernel
  last := by decide +kernel

/-- The records of `full` are in step with all that names them. -/
theorem full_recordsKept : (full st).RecordsKept where
  table := by
    rintro _ ⟨⟩
    exact ⟨show Geometry.InRange ⟨1, 64, 3, 4⟩ by unfold Geometry.InRange; decide, rfl⟩
  lists d x e := by obtain ⟨rfl, rfl⟩ := full_die e; exact full_lists
  mapped l b r e q := by
    rcases full_logical e with ⟨rfl, rfl⟩ | ⟨rfl, rfl⟩ | ⟨rfl, rfl⟩ <;> cases q <;> rw [full_home] <;> exact ⟨_, rfl, rfl⟩
  owned d b l y e q := by
    obtain ⟨rfl, a, e⟩ := full_phys e
    rcases (show ∀ b < 64, ∀ y ∈ fullDie.blocks[b]?, ∀ l ∈ y.owner, (b = 2 ∧ l = 0) ∨ (b = 7 ∧ l = 1) by decide +kernel) b a y e l q
      with ⟨rfl, rfl⟩ | ⟨rfl, rfl⟩ <;> exact ⟨full_home _, _, rfl, rfl⟩
  risk l r e _ := by rcases full_logical e with ⟨rfl, rfl⟩ | ⟨rfl, rfl⟩ | ⟨rfl, rfl⟩ <;> rfl
  writeLink l id r e := by
    constructor
    · rcases full_logical e with ⟨rfl, rfl⟩ | ⟨rfl, rfl⟩ | ⟨rfl, rfl⟩ <;> intro q <;> cases q
      exact ⟨fullWrite, 8, 1, rfl, rfl⟩
    · rintro ⟨x, b, n, q, w⟩
      rcases full_lease _ _ q with ⟨rfl, rfl⟩ | ⟨rfl, rfl⟩ <;> cases w
      rcases full_logical e with ⟨a, -⟩ | ⟨a, -⟩ | ⟨-, rfl⟩ <;> first | rfl | cases a
  relocationLink l r e := by
    rcases three_cases h with rfl | rfl | rfl <;> rcases full_logical e with ⟨rfl, rfl⟩ | ⟨rfl, rfl⟩ | ⟨rfl, rfl⟩ <;> decide +kernel
  oneLink l r e := by rcases full_logical e with ⟨rfl, rfl⟩ | ⟨rfl, rfl⟩ | ⟨rfl, rfl⟩ <;> simp [lrec]
  readers d b y e := by
    obtain ⟨rfl, a, e⟩ := full_phys e
    exact (show ∀ b < 64, ∀ y ∈ fullDie.blocks[b]?, y.readers = (full .waitSlot).naming (fun _ => true) 0 b by decide +kernel) b a y e
  reads id x entries e q := by
    rcases full_lease _ _ e with ⟨rfl, rfl⟩ | ⟨rfl, rfl⟩ <;> cases q
    exact ⟨by decide, by decide, by decide, show ∀ e ∈ ([⟨1, 0, 7, 0#16⟩, ⟨2, 0, 9, 0#16⟩, ⟨2, 0, 10, 1#16⟩] : List ReadEntry), (full .waitSlot).phys? e.die e.block ≠ none by decide +kernel⟩
  writes id l b n x e q := by
    rcases full_lease _ _ e with ⟨rfl, rfl⟩ | ⟨rfl, rfl⟩ <;> cases q
    exact ⟨show (full .waitSlot).logical? 2 ≠ none by decide +kernel, by decide, by decide⟩
  allocated d b := by
    rw [full_blocks .allocated [5, 8] (by decide +kernel) (by decide), full_moves h]
    simp only [full_takes]
    simp only [List.mem_cons, List.not_mem_nil, or_false]
    exact ⟨fun ⟨a, c⟩ => c.elim (fun c => .inr ⟨a, c⟩) fun c => .inl ⟨0, rfl, a, c⟩,
      fun c => c.elim (fun ⟨_, _, a, c⟩ => ⟨a, .inr c⟩) fun ⟨a, c⟩ => ⟨a, .inl c⟩⟩
  oneTaker id d b q := by
    obtain ⟨rfl, rfl, rfl⟩ := full_takes.mp q
    exact ⟨fun w => absurd ((full_moves h).mp w).2 (by decide), fun i w => (full_takes.mp w).1⟩
  relocation d r e := by
    obtain ⟨rfl, rfl⟩ := full_relocation h _ _ e
    refine ⟨full_home _, (by decide : 1 ≤ 1), (by decide : 1 ≤ 3), (by decide : 2 ≠ 5), _, rfl, fun _ => ⟨rfl, fun _ => ⟨_, rfl, by decide⟩⟩⟩
  waiting d := by
    constructor
    · intro q
      rcases three_cases h with rfl | rfl | rfl
      · obtain rfl : d = 0 := by simpa [full] using q
        exact ⟨_, rfl, rfl⟩
      · simp [full] at q
      · simp [full] at q
    · rintro ⟨r, e, q⟩
      obtain ⟨rfl, rfl⟩ := full_relocation h _ _ e
      simp only [relocation] at q
      subst q
      decide
  waitingOnce := by rcases three_cases h with rfl | rfl | rfl <;> decide
  copies d r tag epoch e q := by
    obtain ⟨rfl, rfl⟩ := full_relocation h _ _ e
    rcases three_cases h with rfl | rfl | rfl <;> simp [relocation] at q <;> obtain ⟨rfl, rfl⟩ := q <;>
      exact ⟨copyOrder, by decide +kernel, rfl, rfl, rfl, rfl⟩
  copyOrders p o a b e q := by
    have := (show ∀ st ∈ three, ∀ p : PortId, ∀ o ∈ (full st).ports[p].orders, (p = 0 ∧ o = copyOrder ∧ st ≠ .waitSlot) ∨ o.work = .erase 6 by decide +kernel)
      st h p o e
    rcases this with ⟨rfl, rfl, w⟩ | w
    · cases q
      refine ⟨rfl, relocation st, ?_, ?_, rfl, rfl⟩
      · rcases three_cases h with rfl | rfl | rfl <;> rfl
      · rcases three_cases h with rfl | rfl | rfl <;> simp_all [relocation, copyOrder]
    · simp [q] at w
  erasing d b := by
    rw [full_blocks .erasing [6] (by decide +kernel) (by decide)]
    have : ∀ p : PortId, ∀ o ∈ (full st).ports[p].orders, o.die = 0 ∧ (o.work = .copy 2 5 ∨ o.work = .erase 6) := by
      rcases three_cases h with rfl | rfl | rfl <;> decide +kernel
    constructor
    · rintro ⟨rfl, q⟩
      obtain rfl : b = 6 := by simpa using q
      exact ⟨0, { eraseOrder with slot := 1 }, by rcases three_cases h with rfl | rfl | rfl <;> decide +kernel, rfl, rfl⟩
    · rintro ⟨p, o, e, rfl, q⟩
      obtain ⟨a, w⟩ := this p o e
      rw [q] at w
      simp at w
      simp [a, w]
  eraseOrders p o b e q := by
    have : ∀ st ∈ three, ∀ p : PortId, ∀ o ∈ (full st).ports[p].orders, (full st).diePort o.die = p ∧ ∀ i ∈ (full st).ports[p].orders,
        i.work = o.work → i = o := by decide +kernel
    obtain ⟨a, w⟩ := this st h p o e
    exact ⟨a, fun i k _ x => w i k (x.trans q.symm)⟩
  rescue d l q := by
    have : (full st).rescue d = [] := by
      match d with
      | 0 => rfl
      | d + 1 => rfl
    simp [this] at q
  format a q := by cases q
  load q := absurd rfl q

theorem full_controlKept : (full st).ControlKept := by
  rcases three_cases h with rfl | rfl | rfl <;> constructor <;>
    first
    | decide +kernel
    | (intro a; exact absurd a (by decide +kernel))
    | (unfold Params.InRange; decide +kernel)

theorem full_portsKept : (full st).PortsKept := by
  rcases three_cases h with rfl | rfl | rfl <;>
    (refine ⟨fun p => ?_, leases_all _ _ (by decide +kernel)⟩
     constructor <;> revert p <;> first | decide +kernel | (unfold Port.Empty; decide +kernel))

theorem full_diesKept : (full st).DiesKept := by
  rintro _ ⟨⟩
  refine ⟨rfl, fun d x e => ?_⟩
  match d, e with
  | 0, e =>
    obtain rfl : fullDie = x := Option.some.inj e
    rcases three_cases h with rfl | rfl | rfl <;> constructor <;> first | (unfold Counts; decide +kernel) | decide +kernel
end

/-- DRAINING under a table of 62 RETIRED blocks and no mapping, port 0 UP. -/
def bareDie : Die where
  blocks := [blk .fixed 0, blk .fixed 0] ++ List.replicate 62 ⟨⟨.retired, 0, none, some .factory⟩, none, 0⟩
  wear := List.replicate 63 0 ++ [2]
  mapped := List.replicate 64 0
  spares := []
  eraseQueue := []
  retired := 62
  reserve := -3
  initialReserve := -3
  health := .exhausted
  rescue := []
def bare : State :=
  { ready base with
    tableState := .draining
    drainKind := .forced
    table := some ⟨⟨1, 64, 3, 4⟩, [lrec none 0#16, lrec none 0#16, lrec none 0#16], [bareDie]⟩ }

theorem bare_phys {d b : Nat} {y : PhysRecord} (e : bare.phys? d b = some y) : d = 0 ∧ b < 64 ∧ bareDie.blocks[b]? = some y := by
  match d, e with
  | 0, e => exact ⟨rfl, (List.getElem?_eq_some_iff.mp e).1, e⟩

theorem bare_states {d b : Nat} {y : PhysRecord} (e : bare.phys? d b = some y) :
    (y.state = .fixed ∨ y.state = .retired) ∧ y.owner = none ∧ y.readers = 0 := by
  obtain ⟨rfl, a, e⟩ := bare_phys e
  exact (show ∀ b < 64, ∀ y ∈ bareDie.blocks[b]?, (y.state = .fixed ∨ y.state = .retired) ∧ y.owner = none ∧ y.readers = 0 by decide +kernel)
    b a y e

theorem bare_recordsKept : bare.RecordsKept where
  table := by
    rintro _ ⟨⟩
    exact ⟨show Geometry.InRange ⟨1, 64, 3, 4⟩ by unfold Geometry.InRange; decide, rfl⟩
  lists d x e := by
    match d, e with
    | 0, e =>
      obtain rfl : bareDie = x := Option.some.inj e
      refine ⟨fun b r e => ?_, fun b => ⟨nofun, fun ⟨r, e, q⟩ => ?_⟩, .nil, fun b => ⟨nofun, fun ⟨r, e, q, _⟩ => ?_⟩, .nil, by decide +kernel,
        by decide +kernel⟩
      · obtain ⟨a, c, k⟩ := bare_states (d := 0) e
        have : ∀ b < 64, ∀ r ∈ bareDie.blocks[b]?, (r.state = .fixed ↔ b < 2) ∧ r.eraseCount = 0 ∧ r.weak = none
          ∧ (r.cause ≠ none ↔ r.state = .retired) := by decide +kernel
        obtain ⟨a1, a2, a3, a4⟩ := this b (List.getElem?_eq_some_iff.mp e).1 r e
        refine ⟨⟨a1, fun _ => a2, by omega, fun w => absurd a3 w, a4⟩, ?_, fun w => absurd k w, fun w => ?_⟩
        · simp only [c, ne_eq, not_true_eq_false, false_iff]
          rcases a with a | a <;> simp [a]
        · rcases a with a | a <;> simp [a] at w
      · rcases (bare_states (d := 0) e).1 with a | a <;> simp [a] at q
      · rcases (bare_states (d := 0) e).1 with a | a <;> simp [a] at q
  mapped l b r e q := by
    match l, e with
    | 0, e | 1, e | 2, e => cases e; cases q
  owned d b l y e q := by rw [(bare_states e).2.1] at q; cases q
  risk l r e _ := by
    match l, e with
    | 0, e | 1, e | 2, e => cases e; rfl
  writeLink l id r e := by
    rw [no_leases rfl]
    match l, e with
    | 0, e | 1, e | 2, e => cases e; exact ⟨nofun, nofun⟩
  relocationLink l r e := by
    match l, e with
    | 0, e | 1, e | 2, e => cases e; decide +kernel
  oneLink l r e := by
    match l, e with
    | 0, e | 1, e | 2, e => cases e; exact .inl rfl
  readers d b y e := by
    rw [(bare_states e).2.2]
    simp [State.naming, show bare.leases = Vector.replicate 64 none from rfl]
  reads id x entries e := by rw [no_leases rfl] at e; cases e
  writes id l b n x e := by rw [no_leases rfl] at e; cases e
  allocated d b := by
    constructor
    · rintro ⟨y, e, q⟩
      rcases (bare_states e).1 with a | a <;> simp [a] at q
    · rintro (⟨id, x, l, n, e, -⟩ | ⟨r, e, -⟩)
      · rw [no_leases rfl] at e; cases e
      · rw [no_relocations rfl] at e; cases e
  oneTaker id d b q := by
    obtain ⟨x, l, n, e, -⟩ := q
    rw [no_leases rfl] at e; cases e
  relocation d r e := by rw [no_relocations rfl] at e; cases e
  waiting d := ⟨nofun, fun ⟨r, e, _⟩ => by rw [no_relocations rfl] at e; cases e⟩
  waitingOnce := .nil
  copies d r tag epoch e := by rw [no_relocations rfl] at e; cases e
  copyOrders p o a b e := by
    rw [(by decide +kernel : ∀ p : PortId, bare.ports[p].orders = []) p] at e; cases e
  erasing d b := by
    constructor
    · rintro ⟨y, e, q⟩
      rcases (bare_states e).1 with a | a <;> simp [a] at q
    · rintro ⟨p, o, e, -⟩
      rw [(by decide +kernel : ∀ p : PortId, bare.ports[p].orders = []) p] at e; cases e
  eraseOrders p o b e := by
    rw [(by decide +kernel : ∀ p : PortId, bare.ports[p].orders = []) p] at e; cases e
  rescue d l q := by
    have : bare.rescue d = [] := by
      match d with
      | 0 => rfl
      | d + 1 => rfl
    simp [this] at q
  format a q := by cases q
  load q := absurd rfl q

theorem bare_controlKept : bare.ControlKept := by
  constructor <;>
    first
    | decide +kernel
    | (intro a; exact absurd a (by decide +kernel))
    | exact fun _ d r e => by rw [no_relocations rfl] at e; cases e
    | (unfold Params.InRange; decide +kernel)

theorem bare_diesKept : bare.DiesKept := by
  rintro _ ⟨⟩
  refine ⟨rfl, fun d x e => ?_⟩
  match d, e with
  | 0, e =>
    obtain rfl : bareDie = x := Option.some.inj e
    constructor <;> first | (unfold Counts; decide +kernel) | decide +kernel

/-! ### Witnesses: the invariants -/

theorem witness_ForcedDrainRevokesEveryLease :
    (offline.Ready ∧ offline.tableState ≠ .online ∧ offline.tableState ≠ .draining)
    ∧ (∀ st ∈ three, ((full st).Ready ∧ (full st).tableState = .online ∧ (full st).ControlKept ∧ (full st).DiesKept ∧ (full st).RecordsKept)
      ∧ (full st).lease? 0 = some fullWrite ∧ fullWrite.body = .write 2 8 1 ∧ (full st).LeaseTakes 0 0 8
      ∧ (full st).relocation? 0 = some (relocation st) ∧ (full st).ports[(0 : PortId)].orders ≠ [])
    ∧ (fullDie.blocks[7]? = some (blk .mapped 0 (some 1) 1) ∧ fullDie.blocks[9]? = some (blk .stale 0 none 1)
      ∧ fullDie.blocks[10]? = some (blk .stale 0 none 1 (some .host)) ∧ fullDie.blocks[6]? = some (blk .erasing 3))
    ∧ ((bare.Ready ∧ bare.tableState = .draining ∧ bare.ControlKept ∧ bare.DiesKept ∧ bare.RecordsKept) ∧ (∀ p : PortId, bare.ports[p].orders = [])
      ∧ (∀ id : Nat, bare.lease? id = none) ∧ (∀ d : Nat, bare.relocation? d = none)
      ∧ ∀ (d b : Nat) (y : PhysRecord), bare.phys? d b = some y → y.readers = 0) := by
  refine ⟨by unfold State.Ready; decide +kernel, fun st h => ⟨⟨⟨rfl, rfl⟩, rfl, full_controlKept h, full_diesKept h, full_recordsKept h⟩, rfl, rfl,
    full_takes.mpr ⟨rfl, rfl, rfl⟩, ?_, ?_⟩, by decide +kernel, ⟨⟨rfl, rfl⟩, rfl, bare_controlKept, bare_diesKept, bare_recordsKept⟩,
    by decide +kernel, no_leases rfl, no_relocations rfl, fun _ _ _ e => (bare_states e).2.2⟩ <;>
  (revert st; decide +kernel)

theorem witness_StepKeepsTheControl : ∀ st ∈ three, (full st).ControlKept ∧ ∃ t, step (full st) = .next t := fun _ h => ⟨full_controlKept h, _, rfl⟩

theorem witness_StepKeepsThePorts : ∀ st ∈ three, (full st).PortsKept ∧ ∃ t, step (full st) = .next t := fun _ h => ⟨full_portsKept h, _, rfl⟩

theorem witness_StepKeepsTheDies : ∀ st ∈ three, (full st).DiesKept ∧ ∃ t, step (full st) = .next t := fun _ h => ⟨full_diesKept h, _, rfl⟩

theorem witness_StepKeepsTheRecords :
    ∀ st ∈ three, (full st).PortsKept ∧ (full st).ControlKept ∧ (full st).DiesKept ∧ (full st).RecordsKept ∧ ∃ t, step (full st) = .next t :=
  fun _ h => ⟨full_portsKept h, full_controlKept h, full_diesKept h, full_recordsKept h, _, rfl⟩

/-- A save runs, at its first logical record. -/
def saving : State :=
  { ready base with
    save := ⟨.running, 28, 16, tab.imageHeader 0xFFFFFFFF#32, 0#32, []⟩
    pending := [.retireBlock 0x00#8 6#16] }

theorem saving_controlKept : saving.ControlKept where
  table := by decide +kernel
  generation := by decide +kernel
  drain := by decide +kernel
  drainCheck := by decide +kernel
  format := by decide +kernel
  load := by decide +kernel
  loadEnd := by decide +kernel
  save := by decide +kernel
  shadow := by decide +kernel
  sweep := by decide +kernel
  badList := by decide +kernel
  idle := by intro h; exact absurd h (by decide +kernel)
  waiting := by intro h; exact absurd rfl h
  params := by unfold Params.InRange; decide +kernel

/-- The state a step answers. -/
def after (s : State) : State := match step s with | .next t => t | .fault _ | .refused _ => s

theorem witness_SaveDeliversTheTableAtSaveBegin :
    saving.ControlKept ∧ step saving = .next (after saving) ∧ saving.save.status = .running ∧ (after saving).save.status = .running
      ∧ (after saving).save.position ≤ 25 ∧ 25 + 1 < saving.save.size ∧ (after saving).phys? 0 6 ≠ saving.phys? 0 6 :=
  ⟨saving_controlKept, rfl, by decide +kernel⟩

theorem witness_RecordsChangeOnlyWithTheGeneration :
    (full .waitSlot).ControlKept ∧ step (full .waitSlot) = .next (after (full .waitSlot)) ∧ (full .waitSlot).table.isSome = true
      ∧ { saving with pending := [.getStatus] }.ControlKept
      ∧ (after { saving with pending := [.getStatus] }).table.isSome = true
      ∧ (after { saving with pending := [.getStatus] }).generation = saving.generation :=
  ⟨full_controlKept (by decide), rfl, rfl, { saving_controlKept with }, by decide +kernel⟩

/-! ### Witnesses: images -/

/-- A load receives and has taken this many words of an image of this geometry. -/
def receiving (n : Nat) : LoadStream := ⟨.receiving, n, if n < 4 then none else some 28, 0#32, none, [], { ImageBuild.empty with geometry := ⟨1, 8, 3, 4⟩ }⟩
def loading (x : LoadStream) : State := ready { State.reset with tableState := .loading, load := x }

theorem witness_LoadCommands :
    ((ready base).Ready ∧ (ready base).load.phase ≠ .receiving)
    ∧ ((loading (receiving 0)).Ready ∧ (loading (receiving 0)).load.phase = .receiving)
    ∧ 65 ≤ (List.replicate 65 0#32).length ∧ (1 ≤ (List.replicate 64 0#32).length ∧ (List.replicate 64 0#32).length ≤ 64) := by
  unfold State.Ready; decide +kernel

theorem witness_LoadTakesAWord :
    ({ receiving 0 with fault := some (.magic, 0) }.fault ≠ none)
    ∧ ((receiving 28).fault = none ∧ (receiving 28).size = some 28 ∧ 28 ≤ (receiving 28).received)
    ∧ ((receiving 3).fault = none ∧ (receiving 3).size = none ∧ (receiving 3).received = 3)
    ∧ ((receiving 16).size = some 28 ∧ (receiving 16).received < 28 ∧ 16 ≤ (receiving 16).received ∧ (receiving 16).received < 16 + 3)
    ∧ (16 + 3 ≤ (receiving 19).received ∧ (receiving 26).received < 16 + 3 + 1 * 8 ∧ (receiving 27).received = 16 + 3 + 1 * 8) := by decide +kernel

theorem witness_RecordWords :
    physicalOfWord 6 0xA8000007#32 = none ∧ physicalOfWord 6 0xAE000007#32 = some ⟨.retired, 7, some .port, some .weak⟩
    ∧ ((16777215 < 16777216) ∧ (PhysState.mapped = .fixed ↔ 2 < 2)) ∧ ((lrec (some 1023) 1#16).block = some 1023 ∧ 1023 < 1024)
    ∧ ∀ k : Nat, k < 26 ∨ 30 ≤ k → (0x3C000000#32).getLsbD k = (0#32).getLsbD k := by
  refine ⟨by decide, by decide, by decide, by decide, fun k h => ?_⟩
  by_cases a : k < 32
  · exact (by decide : ∀ k < 32, k < 26 ∨ 30 ≤ k → (0x3C000000#32).getLsbD k = (0#32).getLsbD k) k a h
  · rw [BitVec.getLsbD_of_ge _ _ (by omega), BitVec.getLsbD_of_ge _ _ (by omega)]

def fields (st : PhysState) (n : Nat) : PhysFields := ⟨st, n, none, none⟩
/-- A load of one die of eight blocks is checked: block 2 is named by logical block 0. -/
def checking (sum : Word) (named : List (Nat × Nat)) (fault : Option (LoadFault × Nat)) (n : Nat) : State :=
  loading ⟨.checking, n, some 28, sum, fault, named,
    ⟨⟨1, 8, 3, 4⟩, 9#32, [3], [⟨some 2, 7#16, .none⟩, ⟨none, 0#16, .none⟩, ⟨none, 0#16, .none⟩],
      [fields .fixed 0, fields .fixed 0, fields .mapped 1, fields .spare 2, fields .allocated 3, fields .erasing 4, fields .stale 5,
        fields .spare 6]⟩⟩

theorem witness_LoadFailsItsChecks :
    (checking 0 [] (some (.range, 17)) 28).load.phase = .checking ∧ (checking 0 [] (some (.range, 17)) 28).load.fault = some (.range, 17)
    ∧ ((checking 0 [] none 27).load.fault = none ∧ (checking 0 [] none 27).load.size = some 28 ∧ (checking 0 [] none 27).load.received < 28)
    ∧ ((checking 1 [(0, 2)] none 28).load.sum ≠ 0#32 ∧ 28 ≤ (checking 1 [(0, 2)] none 28).load.received)
    ∧ ((checking 0 [] none 28).load.sum = 0#32 ∧ (checking 0 [] none 28).load.build.physical[2]? = some (fields .mapped 1)
      ∧ (2 / 8, 2 % 8) ∉ (checking 0 [] none 28).load.named) := by decide +kernel

theorem witness_LoadBuildsTheTable :
    let s := checking 0 [(0, 2)] none 28
    s.load.phase = .checking ∧ s.load.fault = none ∧ s.load.size = some 28 ∧ 28 ≤ s.load.received ∧ s.load.sum = 0#32
    ∧ (2 ≤ s.load.build.geometry.blocksPerDie ∧ 1 * 8 ≤ s.load.build.physical.length)
    ∧ ∀ (k : Nat) (r : PhysFields), s.load.build.physical[k]? = some r →
      (r.state = .mapped ↔ (k / 8, k % 8) ∈ s.load.named) ∧ (r.state = .fixed ↔ k % 8 < 2) := by
  refine ⟨rfl, rfl, rfl, by decide +kernel, rfl, by decide +kernel, fun k r h => ?_⟩
  match k, h with
  | 0, h | 1, h | 2, h | 3, h | 4, h | 5, h | 6, h | 7, h => cases h; decide +kernel

theorem witness_SaveBeginAndAbort :
    ((ready State.reset).Ready ∧ (ready State.reset).tableState.hasTable = false)
    ∧ (saving.Ready ∧ saving.tableState.hasTable = true ∧ saving.save.status = .running)
    ∧ ((ready base).Ready ∧ (ready base).tableState.hasTable = true ∧ (ready base).save.status ≠ .running ∧ (ready base).table = some tab) := by
  unfold State.Ready; decide +kernel

theorem witness_SaveDataDeliversTheSweep :
    (saving.Ready ∧ saving.save.status = .running ∧ saving.save.position < saving.save.size ∧ 1 ≤ (64#8).toNat ∧ (64#8).toNat ≤ 64
      ∧ 65 ≤ (65#8).toNat)
    ∧ ((ready base).Ready ∧ (ready base).save.status ≠ .running)
    ∧ (15 < 16 ∧ saving.save.header[15]? = some 0#32)
    ∧ (saving.logical? 2 = some (lrec none 5#16) ∧ (∀ e ∈ saving.save.shadow, e.isLogical 2 = false) ∧ 2 < saving.geometry.logicalCount)
    ∧ (saving.phys? 0 7 = some (blk .mapped 0 (some 1)) ∧ 7 < saving.geometry.blocksPerDie)
    ∧ (ShadowEntry.physical 0 6 (fields .stale 3) ∈ (after saving).save.shadow
      ∧ (after saving).save.shadow.Pairwise fun a b => a.sameRecord b = false) := by unfold State.Ready; decide +kernel

/-! ### Witnesses: frames, ports and requests -/

def goodCommit : Frame := request .commit 0x21#8 0x00#8 0x00#8 0#16
def damaged : Frame := { goodCommit with check := 0#32 }

theorem witness_FramesArriveAndLeave :
    (linked .disabled).ports[(0 : PortId)].link = .disabled
    ∧ ((linked .down).ports[(0 : PortId)].link = .down ∧ framePasses damaged = false)
    ∧ (base.ports[(0 : PortId)].link = .up ∧ framePasses goodCommit = true ∧ goodCommit.kind ≠ 0x01#8)
    ∧ (framePasses (mkFrame 0x01#8 9#8 []) = true ∧ (mkFrame 0x01#8 9#8 []).kind = 0x01#8)
    ∧ base.ports[(0 : PortId)].outgoing = []
    ∧ (base.place 0 creditFrame).ports[(0 : PortId)].outgoing = [creditFrame] := by decide +kernel

/-- Port 0 holds write lease 0, read lease 63, a COPY order and an ERASE order. -/
def laden : State := full (.copying 0x40#8 1#8)

theorem witness_PortLossEndsWhatThePortHolds :
    laden.ports[(0 : PortId)].link = .up ∧ laden.ports[(0 : PortId)].hasOrder 0x41#8 = true ∧ laden.Ready ∧ laden.lease? 1 = none := by
  unfold State.Ready; decide +kernel

theorem witness_PortLossReturnsTheBlocks :
    (laden.ports[(0 : PortId)].link = .up ∧ (∀ (d : Nat) (r : Relocation), laden.relocation? d = some r → laden.home r.logical = d)
      ∧ laden.ports[(0 : PortId)].hasOrder 0x41#8 = true ∧ laden.Ready ∧ laden.PortsKept ∧ laden.ControlKept ∧ laden.RecordsKept)
    ∧ (({ eraseOrder with slot := 1 } ∈ laden.ports[(0 : PortId)].orders ∧ eraseOrder.work = .erase 6 ∧ laden.phys? 0 6 = some (blk .erasing 3))
      ∧ (laden.lease? 0 = some fullWrite ∧ laden.phys? (laden.home 2) 8 = some (blk .allocated 1)
        ∧ laden.logical? 2 = some { lrec none 5#16 with writeLease := some 0 })
      ∧ (copyOrder ∈ laden.ports[(0 : PortId)].orders ∧ copyOrder.work = .copy 2 5 ∧ laden.relocation? 0 = some (relocation (.copying 0x40#8 1#8))
        ∧ laden.phys? 0 5 = some (blk .allocated 2) ∧ laden.logical? 0 = some { lrec (some 2) 0xFFFF#16 with relocating := true }
        ∧ (laden.rescue 0).length < 16)
      ∧ (laden.phys? 0 9 = some (blk .stale 0 none 1) ∧ laden.phys? 0 10 = some (blk .stale 0 none 1 (some .host))
        ∧ laden.naming (fun x => x.port == 0) 0 9 = 1 ∧ laden.naming (fun x => x.port == 0) 0 10 = 1
        ∧ laden.phys? 0 7 = some (blk .mapped 0 (some 1) 1))
      ∧ ((erasing (some .host)).ports[(0 : PortId)].link = .up ∧ eraseOrder ∈ (erasing (some .host)).ports[(0 : PortId)].orders
        ∧ (erasing (some .host)).phys? 0 6 = some (blk .erasing 16777215 none 0 (some .host))))
    ∧ laden.ports[(1 : PortId)].link = .up ∧ laden.ports[(1 : PortId)].orders = []
      ∧ ∀ (id : Nat) (x : Lease), laden.lease? id = some x → x.port ≠ 1 :=
  ⟨⟨rfl, relocations_all _ _ (by decide +kernel), by decide +kernel, ⟨rfl, rfl⟩, full_portsKept (by decide), full_controlKept (by decide),
    full_recordsKept (by decide)⟩, by decide +kernel, rfl, rfl, leases_all _ _ (by decide +kernel)⟩

theorem witness_SetGroupAndUnknownRequests :
    (asks base (request .setGroup 3#8 16#8 0#8 0#16)).Heads 0 (request .setGroup 3#8 16#8 0#8 0#16) (some .setGroup)
    ∧ (asks base (mkFrame 0x0B#8 3#8 [0#32])).Heads 0 (mkFrame 0x0B#8 3#8 [0#32]) none := by unfold State.Heads; decide +kernel

theorem witness_LeaseRequestsAreMatched :
    (64 ≤ (request .commit 3#8 64#8 0#8 0#16).byte0.toNat
      ∧ (asks writing (request .commit 3#8 64#8 0#8 0#16)).Heads 0 (request .commit 3#8 64#8 0#8 0#16) (some .commit))
    ∧ ((asks writing (request .release 3#8 63#8 0#8 0#16)).Heads 0 (request .release 3#8 63#8 0#8 0#16) (some .release)
      ∧ (asks writing (request .release 3#8 63#8 0#8 0#16)).lease? 63 = none)
    ∧ ((asks writing (request .renew 3#8 0#8 0#8 0#16)).Heads 0 (request .renew 3#8 0#8 0#8 0#16) (some .renew) ∧ writeLease.tag ≠ 3#8)
    ∧ ((asks reading (request .commit 0x22#8 63#8 0#8 0#16)).Heads 0 (request .commit 0x22#8 63#8 0#8 0#16) (some .commit)
      ∧ (asks reading (request .commit 0x22#8 63#8 0#8 0#16)).lease? 63 = some readLease ∧ readLease.port = 0 ∧ readLease.tag = 0x22#8)
    ∧ ((asks writing (request .commit 0x21#8 0#8 2#8 0#16)).Heads 0 (request .commit 0x21#8 0#8 2#8 0#16) (some .commit)
      ∧ (asks writing (request .commit 0x21#8 0#8 2#8 0#16)).lease? 0 = some writeLease
      ∧ (asks writing (request .commit 0x21#8 0#8 2#8 0#16)).logical? 0 ≠ none) := by unfold State.Heads; decide +kernel

theorem witness_RenewRestartsTheTimer :
    let f := request .renew 0x21#8 0#8 0#8 0#16
    (asks writing f).Heads 0 f (some .renew) ∧ (asks writing f).lease? 0 = some writeLease ∧ writeLease.port = 0 ∧ writeLease.tag = f.tag := by
  unfold State.Heads; decide +kernel

/-- An OPEN_READ of `n` from logical block 0. -/
def readRun (n : Half) : Frame := request .openRead 0x30#8 0#8 0#8 n
def grouped (n : Nat) : State := base.mapPort 0 fun x => { x with groupSize := n }
/-- LEASE_QUOTA is 0. -/
def unquoted : State := { base with params := { base.params with leaseQuota := Vector.replicate 4 0 } }

theorem witness_OpenReadChecksInOrder :
    (asks (draining base) (readRun 1#16)).Heads 0 (readRun 1#16) (some .openRead)
    ∧ ((asks offline (readRun 1#16)).Heads 0 (readRun 1#16) (some .openRead) ∧ offline.tableState ≠ .online)
    ∧ ((asks base (readRun 4#16)).Heads 0 (readRun 4#16) (some .openRead) ∧ base.tableState = .online
      ∧ ¬0 + (readRun 4#16).byte2.toNat ≤ base.geometry.logicalCount)
    ∧ ((asks base (readRun 2#16)).Heads 0 (readRun 2#16) (some .openRead) ∧ 0 + (readRun 2#16).byte2.toNat ≤ base.geometry.logicalCount
      ∧ base.ports[(0 : PortId)].groupSize = 0)
    ∧ ((asks unquoted (readRun 1#16)).Heads 0 (readRun 1#16) (some .openRead) ∧ unquoted.params.leaseQuota[(0 : PortId)] ≤ unquoted.leasesOf 0)
    ∧ ((asks crowded (readRun 1#16)).Heads 0 (readRun 1#16) (some .openRead) ∧ (∀ id < 64, crowded.lease? id ≠ none)
      ∧ crowded.leasesOf 0 < crowded.params.leaseQuota[(0 : PortId)])
    ∧ ((asks base (request .openRead 0x30#8 2#8 0#8 1#16)).Heads 0 (request .openRead 0x30#8 2#8 0#8 1#16) (some .openRead)
      ∧ base.Grants 0 0 ∧ base.logical? 2 = some (lrec none 5#16)) := by unfold State.Heads State.Grants; decide +kernel

theorem witness_OpenReadGrantsALease :
    let s := asks (grouped 2) (readRun 3#16)
    s.Heads 0 (readRun 3#16) (some .openRead) ∧ s.tableState = .online ∧ s.Grants 0 0 ∧ 0 + (readRun 3#16).byte2.toNat ≤ s.geometry.logicalCount
      ∧ s.ports[(0 : PortId)].groupSize ≠ 0 ∧ s.logical? 0 = some (lrec (some 2) 0xFFFF#16) ∧ s.logical? 1 = some (lrec (some 7) 0#16)
      ∧ s.logical? 2 = some (lrec none 5#16) := by unfold State.Heads State.Grants; decide +kernel

def writeTo (l : Byte) : Frame := request .openWrite 0x30#8 l 0#8 0#16
def exhausted : State := base.mapDie 0 fun x => { x with health := .exhausted }
def spareless : State := base.mapDie 0 fun x => { x with spares := [] }

theorem witness_OpenWriteChecksInOrder :
    (asks (draining base) (writeTo 0#8)).Heads 0 (writeTo 0#8) (some .openWrite)
    ∧ ((asks offline (writeTo 0#8)).Heads 0 (writeTo 0#8) (some .openWrite) ∧ offline.tableState ≠ .online)
    ∧ ((asks base (writeTo 3#8)).Heads 0 (writeTo 3#8) (some .openWrite) ∧ base.logical? 3 = none)
    ∧ ((asks writing (writeTo 0#8)).Heads 0 (writeTo 0#8) (some .openWrite) ∧ writing.lease? 0 = some writeLease)
    ∧ ((asks unquoted (writeTo 0#8)).Heads 0 (writeTo 0#8) (some .openWrite) ∧ unquoted.params.leaseQuota[(0 : PortId)] ≤ unquoted.leasesOf 0)
    ∧ ((asks crowded (writeTo 0#8)).Heads 0 (writeTo 0#8) (some .openWrite) ∧ ∀ id < 64, crowded.lease? id ≠ none)
    ∧ ((asks exhausted (writeTo 2#8)).Heads 0 (writeTo 2#8) (some .openWrite) ∧ exhausted.Grants 0 0 ∧ exhausted.activeRelocation 2 = none
      ∧ exhausted.logical? 2 = some (lrec none 5#16) ∧ exhausted.health? 0 = some .exhausted)
    ∧ ((asks spareless (writeTo 0#8)).Heads 0 (writeTo 0#8) (some .openWrite) ∧ spareless.Grants 0 0 ∧ spareless.spares 0 = []) := by
  unfold State.Heads State.Grants; decide +kernel

theorem witness_OpenWriteGrants :
    ((asks base (writeTo 0#8)).Heads 0 (writeTo 0#8) (some .openWrite) ∧ base.Grants 0 0 ∧ base.activeRelocation 0 = none
      ∧ base.table = some tab ∧ tab.logical[0]? = some (lrec (some 2) 0xFFFF#16) ∧ tab.dies[0]? = some die ∧ die.spares = 3 :: [4]
      ∧ die.blocks[3]? = some (blk .spare 1))
    ∧ ((asks awaiting (writeTo 0#8)).Heads 0 (writeTo 0#8) (some .openWrite) ∧ awaiting.Grants 0 0 ∧ awaiting.home 0 < 8
      ∧ awaiting.activeRelocation 0 = some (relocation .waitSlot) ∧ awaiting.die? 0 = some die ∧ die.blocks[5]? = some (blk .allocated 2)
      ∧ (insertSpare die.eraseCount 5 die.spares).head? = some 3)
    ∧ ((asks (relocating (.copying 0x40#8 1#8)) (writeTo 0#8)).Heads 0 (writeTo 0#8) (some .openWrite)
      ∧ (relocating (.copying 0x40#8 1#8)).activeRelocation 0 = some (relocation (.copying 0x40#8 1#8)) ∧ die.spares.head? = some 3) := by
  unfold State.Heads State.Grants; decide +kernel

def commitOf (result : Byte) : Frame := request .commit 0x21#8 0#8 result 0#16
def unmappedLease : Lease := ⟨0, 0x21#8, .write 2 5 3, some 1⟩
/-- Port 0 holds write lease 0 on the UNMAPPED logical block 2, at its third attempt, the die of this health. -/
def writingUnmapped (h : Health) : State :=
  ((setLog base 2 { lrec none 5#16 with writeLease := some 0 }).setLease 0 (some unmappedLease)).mapDie 0 fun x => { x with health := h }

theorem witness_CommitMapsTheDestination :
    ((asks writing (commitOf 0#8)).Heads 0 (commitOf 0#8) (some .commit) ∧ (asks writing (commitOf 0#8)).lease? 0 = some writeLease
      ∧ writeLease.port = 0 ∧ writeLease.tag = (commitOf 0#8).tag ∧ (commitOf 0#8).byte1 = 0x00#8
      ∧ die.blocks[5]? = some (blk .allocated 2) ∧ die.blocks[2]? = some (blk .mapped 0 (some 0)) ∧ (2 : Nat) ≠ 5
      ∧ writing.logical? 0 = some { lrec (some 2) 0xFFFF#16 with writeLease := some 0 })
    ∧ ∀ h ∈ [Health.good, .exhausted], (asks (writingUnmapped h) (commitOf 0#8)).Heads 0 (commitOf 0#8) (some .commit)
      ∧ (asks (writingUnmapped h) (commitOf 0#8)).lease? 0 = some unmappedLease ∧ (writingUnmapped h).health? 0 = some h
      ∧ (writingUnmapped h).logical? 2 = some { lrec none 5#16 with writeLease := some 0 } := by unfold State.Heads; decide +kernel

theorem witness_CommitFailureRetiresTheDestination :
    ((asks writing (commitOf 1#8)).Heads 0 (commitOf 1#8) (some .commit) ∧ (asks writing (commitOf 1#8)).lease? 0 = some writeLease
      ∧ (commitOf 1#8).byte1 = 0x01#8 ∧ die.blocks[5]? = some (blk .allocated 2)
      ∧ (die.withRetired 4 2 5 (blk .allocated 2) .programFail 2).spares = 3 :: [4]
      ∧ (die.withRetired 4 2 5 (blk .allocated 2) .programFail 2).blocks[3]? = some (blk .spare 1))
    ∧ (asks (writingUnmapped .good) (commitOf 1#8)).Heads 0 (commitOf 1#8) (some .commit)
    ∧ (asks (writingUnmapped .good) (commitOf 1#8)).lease? 0 = some unmappedLease := by unfold State.Heads; decide +kernel

theorem witness_LeasesEnd :
    let f := request .release 0x21#8 0#8 0#8 0#16
    let g := request .release 0x22#8 63#8 0#8 0#16
    ((asks writing f).Heads 0 f (some .release) ∧ (asks writing f).lease? 0 = some writeLease ∧ writeLease.body = .write 0 5 1
      ∧ f.tag = writeLease.tag ∧ writeLease.expiry ≠ none ∧ writing.phys? 0 5 = some (blk .allocated 2))
    ∧ ((asks reading g).Heads 0 g (some .release) ∧ (asks reading g).lease? 63 = some readLease ∧ readLease.body = .read [⟨1, 0, 7, 0#16⟩]
      ∧ g.tag = readLease.tag ∧ readLease.expiry ≠ none ∧ reading.phys? 0 7 = some (blk .mapped 0 (some 1) 1))
    ∧ ((asks laden g).Heads 0 g (some .release) ∧ (asks laden g).lease? 63 = some fullRead ∧ g.tag = fullRead.tag ∧ fullRead.expiry ≠ none
      ∧ laden.phys? 0 9 = some (blk .stale 0 none 1) ∧ laden.phys? 0 10 = some (blk .stale 0 none 1 (some .host)))
    ∧ laden.DiesKept ∧ ∀ (d b : Nat) (y : PhysRecord), laden.phys? d b = some y →
      ([⟨1, 0, 7, 0#16⟩, ⟨2, 0, 9, 0#16⟩, ⟨2, 0, 10, 1#16⟩] : List ReadEntry).countP (fun e => e.die == d && e.block == b) ≤ y.readers := by
  refine ⟨by unfold State.Heads; decide +kernel, by unfold State.Heads; decide +kernel, by unfold State.Heads; decide +kernel, full_diesKept (by decide), ?_⟩
  intro d b y e
  obtain ⟨rfl, a, e⟩ := full_phys e
  exact (show ∀ b < 64, ∀ y ∈ fullDie.blocks[b]?, ([⟨1, 0, 7, 0#16⟩, ⟨2, 0, 9, 0#16⟩, ⟨2, 0, 10, 1#16⟩] : List ReadEntry).countP
    (fun e => e.die == 0 && e.block == b) ≤ y.readers by decide +kernel) b a y e

def drop (l : Byte) : Frame := request .discard 0x30#8 l 0#8 0#16

theorem witness_DiscardUnmaps :
    ((asks offline (drop 0#8)).Heads 0 (drop 0#8) (some .discard) ∧ offline.tableState ≠ .online ∧ offline.tableState ≠ .draining)
    ∧ ((asks base (drop 3#8)).Heads 0 (drop 3#8) (some .discard) ∧ base.logical? 3 = none)
    ∧ ((asks writing (drop 0#8)).Heads 0 (drop 0#8) (some .discard) ∧ writing.lease? 0 = some writeLease)
    ∧ ((asks (draining base) (drop 2#8)).Heads 0 (drop 2#8) (some .discard) ∧ base.logical? 2 = some (lrec none 5#16))
    ∧ ((asks base (drop 0#8)).Heads 0 (drop 0#8) (some .discard) ∧ base.activeRelocation 0 = none
      ∧ base.logical? 0 = some (lrec (some 2) 0xFFFF#16) ∧ die.blocks[2]? = some (blk .mapped 0 (some 0)))
    ∧ ((asks awaiting (drop 0#8)).Heads 0 (drop 0#8) (some .discard) ∧ awaiting.activeRelocation 0 = some (relocation .waitSlot)
      ∧ awaiting.phys? 0 5 = some (blk .allocated 2) ∧ (2 : Nat) ≠ 5 ∧ awaiting.home 0 < 8)
    ∧ (asks (relocating (.copying 0x40#8 1#8)) (drop 0#8)).Heads 0 (drop 0#8) (some .discard)
    ∧ ∀ y ∈ [blk .mapped 0 (some 0), blk .mapped 0 (some 0) 1, blk .mapped 0 (some 0) 0 (some .host)], (setBlk awaiting 2 y).phys? 0 2 = some y := by
  unfold State.Heads; decide +kernel

theorem witness_RequestsKeepOtherPortsLeases :
    exec (.openWrite 0) (asks (base.setLease 63 (some ⟨1, 0#8, .read [], none⟩)) (writeTo 0#8))
      = .next (after { asks (base.setLease 63 (some ⟨1, 0#8, .read [], none⟩)) (writeTo 0#8) with pending := [.openWrite 0] })
    ∧ (base.setLease 63 (some ⟨1, 0#8, .read [], none⟩)).lease? 63 = some ⟨1, 0#8, .read [], none⟩ := ⟨rfl, by decide +kernel⟩

/-! ### Witnesses: weak blocks, relocations and orders -/

def report (b : Half) : Frame := request .reportWeak 0x30#8 0#8 0#8 b
/-- The die's rescue queue holds 16 entries. -/
def queued : State := base.mapDie 0 fun x => { x with rescue := List.range' 10 16 }

theorem witness_WeakReportsAndOffers :
    ((relocating .waitSlot).activeRelocation 0 = some (relocation .waitSlot) ∧ base.activeRelocation 0 = none ∧ 0 ∉ die.rescue
      ∧ weakened.rescue 0 = [1] ∧ (queued.rescue 0).length = 16 ∧ 0 ∉ queued.rescue 0 ∧ queued.activeRelocation 0 = none)
    ∧ ((asks offline (report 2#16)).Heads 0 (report 2#16) (some .reportWeak) ∧ offline.tableState ≠ .online)
    ∧ (0x00#8 = (report 8#16).byte0 ∧ 8#16 = (report 8#16).high ∧ (asks base (report 8#16)).Heads 0 (report 8#16) (some .reportWeak)
      ∧ base.phys? 0 8 = none ∧ (ready base).Ready ∧ (ready State.reset).Ready ∧ (ready State.reset).tableState.hasTable = false)
    ∧ (base.phys? 0 5 = some (blk .allocated 2) ∧ base.phys? 0 3 = some (blk .spare 1) ∧ base.phys? 0 2 = some (blk .mapped 0 (some 0))
      ∧ base.phys? 0 6 = some (blk .stale 3))
    ∧ (setBlk base 6 (blk .stale 3 none 64)).phys? 0 6 = some (blk .stale 3 none 64) := by unfold State.Heads State.Ready; decide +kernel

/-- Die 0 is owed an evaluation and has these rescue entries. -/
def owed (s : State) (rescue : List Nat) : State := (s.mapDie 0 fun x => { x with rescue := rescue }).triggerDie 0
def levelling : State := owed { base with params := { base.params with levelGap := 2 } } []

/-- The gap is reached, and both MAPPED blocks are weak. -/
def tired : State := setBlk (setBlk levelling 2 (blk .mapped 0 (some 0) 0 (some .port))) 7 (blk .mapped 0 (some 1) 0 (some .host))

theorem witness_EvaluationOfADie :
    base.evaluationsOwed[(0 : SlotId)] = 0
    ∧ ((owed base []).evaluationsOwed[(0 : SlotId)] = 0 + 1 ∧ (owed (draining base) []).tableState ≠ .online
      ∧ (owed (relocating .waitSlot) []).relocation? 0 ≠ none ∧ (owed spareless []).spares 0 = []
      ∧ (owed writing [0]).rescue 0 ≠ [] ∧ (writing.logical? 0).bind (·.writeLease) = some 0)
    ∧ ((owed writing [0, 1]).evaluationsOwed[(0 : SlotId)] = 0 + 1 ∧ (owed writing [0, 1]).tableState = .online
      ∧ (owed writing [0, 1]).relocation? 0 = none ∧ ((owed writing [0, 1]).die? 0).map (·.rescue) = some ([0] ++ 1 :: [])
      ∧ (owed writing [0, 1]).logical? 1 = some (lrec (some 7) 0#16) ∧ (owed writing [0, 1]).phys? 0 3 = some (blk .spare 1))
    ∧ (levelling.rescue 0 = [] ∧ levelling.params.levelEnable = true ∧ levelling.health? 0 = some .good ∧ levelling.spares 0 = [3] ++ [4]
      ∧ die.mapped[0]? = some (1 + 1) ∧ 0 + levelling.params.levelGap ≤ min ((blk .spare 9).eraseCount / 4) 62
      ∧ levelling.phys? 0 2 = some (blk .mapped 0 (some 0)) ∧ levelling.logical? 0 = some (lrec (some 2) 0xFFFF#16))
    ∧ (tired.evaluationsOwed[(0 : SlotId)] = 0 + 1 ∧ tired.rescue 0 = [] ∧ tired.spares 0 = [3] ++ [4] ∧ tired.health? 0 = some .good
      ∧ ∀ x ∈ tired.die? 0, x.mapped[0]? = some 2 ∧ ∀ y ∈ x.blocks, y.state = .mapped → y.weak ≠ none) := by decide +kernel

/-- Port 0 is to be considered; it has two orders, and its next two tags are taken. -/
def due (s : State) : State :=
  (s.consider 0).mapPort 0 fun x =>
    { x with orders := [⟨0, .copy 3 4, 0, 0xFF#8, 1#8, 7⟩, ⟨2, .copy 3 4, 0, 0x00#8, 1#8, 7⟩], tagCounter := 0xFF#8 }

theorem witness_ConsiderationOfAPort :
    base.ports[(0 : PortId)].issueDue = false
    ∧ ((due (draining base)).ports[(0 : PortId)].issueDue = true ∧ (due (draining base)).tableState ≠ .online)
    ∧ ((due base).ports[(0 : PortId)].link = .up ∧ (due base).ports[(0 : PortId)].orders.length < 4 ∧ (due base).chooseWork 0 = some (0, .erase 6)
      ∧ (∀ o ∈ (due base).ports[(0 : PortId)].orders, o.slot ≠ 1) ∧ (∀ i < 1, ∃ o ∈ (due base).ports[(0 : PortId)].orders, o.slot = i)
      ∧ (∀ o ∈ (due base).ports[(0 : PortId)].orders, o.tag ≠ (due base).ports[(0 : PortId)].tagCounter + 2#8)
      ∧ (∀ j < 2, ∃ o ∈ (due base).ports[(0 : PortId)].orders, o.tag = (due base).ports[(0 : PortId)].tagCounter + BitVec.ofNat 8 j)
      ∧ die.blocks[6]? = some (blk .stale 3))
    ∧ (due awaiting).chooseWork 0 = some (0, .copy 2 5) ∧ (due awaiting).relocation? 0 = some (relocation .waitSlot) := by decide +kernel

theorem witness_DispatcherChoosesWork :
    (awaiting.waiting = [] ++ 0 :: [] ∧ 0 < awaiting.geometry.dieCount ∧ awaiting.diePort 0 = 0
      ∧ awaiting.relocation? 0 = some (relocation .waitSlot) ∧ (relocation .waitSlot).kind = .rescue)
    ∧ (base.waiting = [] ∧ base.ports[(0 : PortId)].orders.countP (fun o => o.isErase) < 3 ∧ die.eraseQueue.head? = some 6
      ∧ base.geometry.dieCount ≤ 8)
    ∧ 3 ≤ (ordered (ordered (ordered base eraseOrder) eraseOrder) eraseOrder).ports[(0 : PortId)].orders.countP (fun o => o.isErase)
    ∧ (base.diePort 1 ≠ 0 ∧ ¬1 < base.geometry.dieCount) := by decide +kernel

def doneWith (tag status : Byte) : Frame := request .orderDone 0x30#8 tag 1#8 (0#8 ++ status)

theorem witness_OrderDoneOfAnErase :
    ((asks (erasing none) (doneWith 0x42#8 0#8)).Heads 0 (doneWith 0x42#8 0#8) (some .orderDone)
      ∧ ∀ o ∈ (erasing none).ports[(0 : PortId)].orders, o.tag ≠ 0x42#8)
    ∧ ((asks (erasing none) (doneWith 0x41#8 2#8)).Heads 0 (doneWith 0x41#8 2#8) (some .orderDone) ∧ 2 ≤ (doneWith 0x41#8 2#8).byte2.toNat)
    ∧ ((asks (copying (.copying 0x40#8 1#8)) (doneWith 0x40#8 1#8)).Heads 0 (doneWith 0x40#8 1#8) (some .orderDone)
      ∧ (doneWith 0x40#8 1#8).byte2 = 0x01#8)
    ∧ ∀ m ∈ [none, some WeakMark.port, some .host], ∀ st ∈ [0#8, 1#8],
      (asks (erasing m) (doneWith 0x41#8 st)).Heads 0 (doneWith 0x41#8 st) (some .orderDone)
        ∧ eraseOrder ∈ (asks (erasing m) (doneWith 0x41#8 st)).ports[(0 : PortId)].orders
        ∧ ((asks (erasing m) (doneWith 0x41#8 st)).ports[(0 : PortId)].orders.map (·.tag)).Nodup
        ∧ eraseOrder.tag = (doneWith 0x41#8 st).byte0 ∧ eraseOrder.epoch = (doneWith 0x41#8 st).byte1
        ∧ (doneWith 0x41#8 st).byte1 = (asks (erasing m) (doneWith 0x41#8 st)).ports[(0 : PortId)].epoch
        ∧ (doneWith 0x41#8 st).byte2 = st ∧ (erasing m).phys? 0 6 = some (blk .erasing 16777215 none 0 m) := by
  unfold State.Heads; decide +kernel

theorem witness_ActiveCopyResults :
    ∀ st ∈ [0#8, 3#8],
      let s := asks (copying (.copying 0x40#8 1#8)) (doneWith 0x40#8 st)
      s.Heads 0 (doneWith 0x40#8 st) (some .orderDone) ∧ copyOrder ∈ s.ports[(0 : PortId)].orders
        ∧ (s.ports[(0 : PortId)].orders.map (·.tag)).Nodup ∧ copyOrder.tag = (doneWith 0x40#8 st).byte0
        ∧ copyOrder.epoch = (doneWith 0x40#8 st).byte1 ∧ (doneWith 0x40#8 st).byte1 = s.ports[(0 : PortId)].epoch
        ∧ copyOrder.work = .copy 2 5 ∧ s.relocation? 0 = some (relocation (.copying 0x40#8 1#8))
        ∧ s.logical? 0 = some { lrec (some 2) 0xFFFF#16 with relocating := true } ∧ s.geometry.home 0 = 0
        ∧ s.phys? 0 5 = some (blk .allocated 2) ∧ s.phys? 0 2 = some (blk .mapped 0 (some 0)) ∧ (doneWith 0x40#8 st).byte2 = st := by
  unfold State.Heads; decide +kernel

theorem witness_FailedAndCancelledCopies :
    (∀ st ∈ [RelocationState.copying 0x40#8 1#8, .cancelled 0x40#8 1#8], ∀ r ∈ [0#8, 2#8, 3#8],
      let s := asks (copying st) (doneWith 0x40#8 r)
      s.Heads 0 (doneWith 0x40#8 r) (some .orderDone) ∧ copyOrder ∈ s.ports[(0 : PortId)].orders
        ∧ copyOrder.tag = (doneWith 0x40#8 r).byte0 ∧ copyOrder.epoch = (doneWith 0x40#8 r).byte1
        ∧ s.relocation? 0 = some (relocation st) ∧ s.phys? 0 5 = some (blk .allocated 2) ∧ (doneWith 0x40#8 r).byte2 = r)
    ∧ ((copying (.copying 0x40#8 1#8)).tableState = .online ∧ (relocation .waitSlot).attempt < 3 ∧ die.spares.filter (· != 5) = [3, 4])
    ∧ (draining (copying (.copying 0x40#8 1#8))).tableState ≠ .online
    ∧ (∀ y ∈ [blk .stale 0 none 1, blk .stale 0, blk .erasing 0, blk .spare 0, blk .mapped 0 (some 1)],
      (setBlk (copying (.cancelled 0x40#8 1#8)) 2 y).phys? 0 2 = some y)
    ∧ (queued.rescue 0).length = 16 ∧ 0 ∉ queued.rescue 0 := by
  unfold State.Heads; decide +kernel

/-! ### Values the spec works out -/

/-- 9.9, R140, R142: FORMAT 2, 64, 100, 1, 4 with 0:17 on the bad list: 1 applying entry, reserves 11 and 12, spares 11 and 12. -/
theorem test_format_of_the_reference_geometry :
    let t := after { State.reset with
      busy := .format ⟨⟨2, 64, 100, 1⟩, 4⟩, tableState := .formatting, badList := [⟨0, 17⟩], pending := [.formatCompletion] }
    t.lastResult = .formatOk 1 0 ∧ (t.die? 0).map (·.reserve) = some 11 ∧ (t.die? 1).map (·.reserve) = some 12
      ∧ (t.spares 0).length = 11 ∧ t.spares 1 = List.range' 52 12 ∧ t.attention = 0b01000#5 := by decide +kernel

/-- R140: with MIN_SPARES 12 the same format fails with NO_ROOM naming die 0. -/
theorem test_format_without_room :
    (after { State.reset with
      busy := .format ⟨⟨2, 64, 100, 1⟩, 12⟩, tableState := .formatting, badList := [⟨0, 17⟩], pending := [.formatCompletion] }).lastResult
      = .noRoom 0 := by decide +kernel

/-- R131: with GROUP_SIZE 4, n 16 needs 4 places and n 5 needs 2; with GROUP_SIZE 0, n 1 needs 1 and n 16 needs 16. -/
theorem test_room_needed :
    ({ Port.reset with groupSize := 4 }).roomNeeded (readRun 16#16) = 4 ∧ ({ Port.reset with groupSize := 4 }).roomNeeded (readRun 5#16) = 2
      ∧ Port.reset.roomNeeded (readRun 1#16) = 1 ∧ Port.reset.roomNeeded (readRun 16#16) = 16 := by decide +kernel

/-- 6.12, step 1: a HELLO of tag 9 on a DOWN port of epoch 0, the table ONLINE: the answer carries tag 9, epoch 1 and ONLINE. -/
theorem test_hello_answer :
    let t := after { linked .down with ports := (linked .down).ports.set 1 Port.reset, pending := [.hello 1 9#8] }
    t.ports[(1 : PortId)].outgoing = [⟨0x81#8, 9#8, [0x00FF0100#32, 0x00000401#32]⟩] ∧ t.ports[(1 : PortId)].credits = 8
      ∧ t.ports[(1 : PortId)].epoch = 1#8 := by decide +kernel

/-- 6.12, step 8: a COMMIT with a bad check: FRAME_ERROR 1, one credit owed, a CREDIT frame placed. -/
theorem test_damaged_request :
    let t := after { writing with pending := [.frameArrival 0 damaged] }
    t.ports[(0 : PortId)].frameErrors = 1 ∧ t.ports[(0 : PortId)].credits = 1 ∧ t.ports[(0 : PortId)].outgoing = [⟨0x84#8, 0#8, []⟩]
      ∧ t.lease? 0 = some writeLease := by decide +kernel

/-- 9.9: GET_PARAM while a FORMAT runs is answered BUSY, FORMAT, not started: status 01, length 2, 01, 00, check. -/
theorem test_busy_response :
    (after { busy with pending := [.getParam 0x03#8 0#8] }).response = [0x01#8, 0x02#8, 0x00#8, 0x01#8, 0x00#8, 0xFC#8] := by decide +kernel

end Sys2Proof.Tests
end

section
/-! PROOFS. Chapter 3, RENEW: a request on a matched lease runs its rule, and RENEW's rule sets the lease's expiry alone. -/

namespace Sys2Proof.Machine

/-! ### The kind of a taken request (R188) -/

/-- 10.1.2: a kind code that stands for a request is that request's code. -/
theorem RequestKind.code_of_ofCode {b : Byte} {k : RequestKind} (h : RequestKind.ofCode b = some k) : b = k.code := by
  unfold RequestKind.ofCode at h
  refine BitVec.eq_of_toNat_eq ?_
  split at h <;> cases h
  all_goals assumption

/-- R188: a frame of accepted form carries the kind code of the request it makes. -/
theorem Frame.kind_of_request {f : Frame} {k : RequestKind} (h : f.request = some k) : f.kind = k.code := by
  unfold Frame.request at h
  split at h
  · cases h
  · next k' hk =>
    split at h
    · cases h; exact RequestKind.code_of_ofCode hk
    · cases h

variable {s : State} {p : PortId} {f : Frame}

/-- R188: the head frame taken as a request carries that request's kind code. -/
theorem State.Heads.kind_eq {k : RequestKind} (h : s.Heads p f (some k)) : f.kind = k.code := by
  obtain ⟨-, -, hreq⟩ := h
  exact Frame.kind_of_request hreq

/-! ### Matched leases (R47) -/

theorem State.matchLease_eq_some {id : Nat} {tag : Byte} {l : Lease} :
    s.matchLease p id tag = some l ↔ s.lease? id = some l ∧ l.port = p ∧ l.tag = tag := by
  unfold State.matchLease
  simp

/-- R47: a request that names an open lease of its own port and tag is served on that lease. -/
theorem State.withLease_matched {l : Lease} (hid : f.byte0.toNat < 64) (hl : s.matchLease p f.byte0.toNat f.tag = some l)
    (body : Nat → Lease → State) : s.withLease p f body = body f.byte0.toNat l := by
  unfold State.withLease
  rw [if_neg (Nat.not_le.mpr hid), hl]

/-- Taking the head request keeps the leases, so it keeps what the request matches. -/
theorem State.takeHead_matchLease (s : State) (p q : PortId) (id : Nat) (tag : Byte) :
    (s.takeHead q).matchLease p id tag = s.matchLease p id tag := rfl

/-! ### RENEW (R52, R67) -/

/-- R52: a new expiry is taken from LEASE_LIMIT, which the taking of a request keeps. -/
theorem State.takeHead_newExpiry (s : State) (p : PortId) : (s.takeHead p).newExpiry = s.newExpiry := rfl

/-- R52: LEASE_LIMIT 0 and no timer are the same remaining time. -/
theorem State.newExpiry_getD (s : State) : s.newExpiry.getD 0 = s.params.leaseLimit := by
  unfold State.newExpiry
  split
  · next h => rw [h]; rfl
  · rfl

/-- 10.1.4: the word of a remaining time holds it in bits 0 to 15. -/
theorem remainingWord_eq (n : Nat) : (0#16 ++ BitVec.ofNat 16 n : Word) = BitVec.ofNat 32 (n % 65536) := by
  refine BitVec.eq_of_toNat_eq ((BitVec.toNat_append 0#16 (BitVec.ofNat 16 n)).trans ?_)
  simp only [BitVec.toNat_ofNat, Nat.zero_mod, Nat.zero_shiftLeft, Nat.zero_or]
  omega

/-- A lease entry is written before or after an answer is placed, with one outcome. -/
theorem State.setLease_answer (s : State) (id : Nat) (o : Option Lease) (status : AnswerStatus) (lease : Byte) (words : List Word) :
    (s.setLease id o).answer p f status lease words = (s.answer p f status lease words).setLease id o := rfl

/-- R67: RENEW as served on a matched lease. -/
theorem State.serveRenew_matched {l : Lease} (hid : f.byte0.toNat < 64) (hl : s.matchLease p f.byte0.toNat f.tag = some l) :
    s.serveRenew p f = (s.answer p f .ok f.byte0 [BitVec.ofNat 32 (s.params.leaseLimit % 65536)]).setLease f.byte0.toNat
      (some { l with expiry := s.newExpiry }) := by
  unfold State.serveRenew
  rw [State.withLease_matched hid hl, State.setLease_answer, State.newExpiry_getD, remainingWord_eq]

theorem exec_renew_eq (p : PortId) (s : State) : exec (.renew p) s = .next (s.serve p (some .renew) (State.serveRenew p)) := rfl

/-- Settles O39: the matched lease is still matched once the head request is taken, so RENEW's rule writes its expiry and answers. -/
theorem renewRestartsTheTimer : Obligations.RenewRestartsTheTimer := by
  unfold Obligations.RenewRestartsTheTimer
  intro p f l s heads hid hl hport htag
  have matched : (s.takeHead p).matchLease p f.byte0.toNat f.tag = some l := by
    rw [State.takeHead_matchLease, State.matchLease_eq_some]
    exact ⟨hl, hport, htag⟩
  rw [exec_renew_eq, heads.serve, State.serveRenew_matched hid matched, State.takeHead_answer, State.takeHead_newExpiry,
    heads.kind_eq]
  rfl

end Sys2Proof.Machine
end

section
/-! PROOFS. Chapter 9, the inquiries on the whole part: IDENTIFY, GET_STATUS with the worst health and the summary, and ACK_ATTN with the
ATTN line. -/

namespace Sys2Proof.Machine

/-! ### Attention causes (R180, R181, R182) -/

/-- 10.2: the number of a cause's bit in a cause set. -/
def Cause.place : Cause → Nat
  | .dieHealth => 0
  | .portFault => 1
  | .dataAtRisk => 2
  | .opDone => 3
  | .drained => 4

theorem Cause.bit_eq_twoPow (c : Cause) : c.bit = BitVec.twoPow 5 c.place := by cases c <;> rfl

/-- Each bit of a cause set stands for one of the five causes. -/
theorem Cause.exists_place_eq {i : Nat} (h : i < 5) : ∃ c : Cause, c.place = i :=
  match i, h with
  | 0, _ => ⟨.dieHealth, rfl⟩
  | 1, _ => ⟨.portFault, rfl⟩
  | 2, _ => ⟨.dataAtRisk, rfl⟩
  | 3, _ => ⟨.opDone, rfl⟩
  | 4, _ => ⟨.drained, rfl⟩

theorem Cause.isIn_eq_getLsbD (c : Cause) (set : CauseSet) : c.isIn set = set.getLsbD c.place := by
  have bit : BitVec.twoPow 5 c.place ≠ 0#5 := by cases c <;> decide
  unfold Cause.isIn
  rw [Cause.bit_eq_twoPow, BitVec.and_twoPow]
  cases set.getLsbD c.place <;> simp [bit]

/-- A cause is in two sets when it is in what they share. -/
theorem Cause.isIn_and (c : Cause) (a b : CauseSet) : c.isIn (a &&& b) = (c.isIn a && c.isIn b) := by
  simp only [Cause.isIn_eq_getLsbD, BitVec.getLsbD_and]

/-- A cause set is the empty one exactly when none of the five causes is in it. -/
theorem Cause.exists_isIn_iff {set : CauseSet} : (∃ c : Cause, c.isIn set = true) ↔ set ≠ 0#5 := by
  constructor
  · rintro ⟨c, hc⟩ rfl
    simp [Cause.isIn_eq_getLsbD] at hc
  · intro h
    by_contra absent
    refine h (BitVec.eq_of_getLsbD_eq fun i hi => ?_)
    obtain ⟨c, rfl⟩ := Cause.exists_place_eq hi
    have hc : c.isIn set ≠ true := fun hc => absent ⟨c, hc⟩
    simpa [Cause.isIn_eq_getLsbD] using hc

/-- R182: the line is asserted exactly while some pending cause is in ATTN_MASK. -/
theorem State.attnLine_iff {s : State} :
    s.attnLine = true ↔ ∃ c : Cause, c.isIn s.attention = true ∧ c.isIn s.params.attnMask = true :=
  calc s.attnLine = true
      ↔ s.attention &&& s.params.attnMask ≠ 0#5 := bne_iff_ne
    _ ↔ ∃ c : Cause, c.isIn (s.attention &&& s.params.attnMask) = true := Cause.exists_isIn_iff.symm
    _ ↔ _ := by simp only [Cause.isIn_and, Bool.and_eq_true]

/-- 10.2: a cause set as a byte keeps its five bits. -/
theorem causeByte_eq_setWidth (set : CauseSet) : causeByte set = set.setWidth 8 :=
  (BitVec.setWidth_eq_append (by decide)).symm

/-- R189: a byte is a cause set when bits 5 to 7 are clear, that is, below 32. -/
theorem causesOfByte_eq (b : Byte) : causesOfByte b = if b.toNat < 32 then some (b.setWidth 5) else none := by
  have low : b.extractLsb' 0 5 = b.setWidth 5 := (BitVec.setWidth_eq_extractLsb' (by decide)).symm
  have high : b.extractLsb' 5 3 = 0#3 ↔ b.toNat < 32 := by
    have lt := b.isLt
    rw [← BitVec.toNat_inj, BitVec.extractLsb'_toNat, Nat.shiftRight_eq_div_pow, BitVec.toNat_ofNat]
    omega
  unfold causesOfByte
  simp only [low, high]

/-! ### The worst health of the dies and the summary (R44, R183) -/

theorem Health.worse_eq_exhausted_iff {a b : Health} : a.worse b = .exhausted ↔ a = .exhausted ∨ b = .exhausted := by
  cases a <;> cases b <;> decide

theorem Health.worse_eq_good_iff {a b : Health} : a.worse b = .good ↔ a = .good ∧ b = .good := by
  cases a <;> cases b <;> decide

theorem Health.eq_low_iff {h : Health} : h = .low ↔ h ≠ .good ∧ h ≠ .exhausted := by cases h <;> decide

theorem Table.worstHealth_eq_exhausted_iff {t : Table} : t.worstHealth = .exhausted ↔ ∃ x ∈ t.dies, x.health = .exhausted := by
  unfold Table.worstHealth
  induction t.dies with
  | nil => simp
  | cons x rest ih => simp [Health.worse_eq_exhausted_iff, ih]

theorem Table.worstHealth_eq_good_iff {t : Table} : t.worstHealth = .good ↔ ∀ x ∈ t.dies, x.health = .good := by
  unfold Table.worstHealth
  induction t.dies with
  | nil => simp
  | cons x rest ih => simp [Health.worse_eq_good_iff, ih]

/-- R183: the worst health is LOW when some die is LOW and none is EXHAUSTED. -/
theorem Table.worstHealth_eq_low_iff {t : Table} :
    t.worstHealth = .low ↔ (∃ x ∈ t.dies, x.health = .low) ∧ ∀ x ∈ t.dies, x.health ≠ .exhausted := by
  rw [Health.eq_low_iff, Ne, Ne, Table.worstHealth_eq_good_iff, Table.worstHealth_eq_exhausted_iff]
  push Not
  refine and_congr_left fun spared => exists_congr fun x => and_congr_right fun hx => ?_
  rw [Health.eq_low_iff]
  exact (and_iff_left (spared x hx)).symm

/-- R44: the summary is ALARM when some die is not GOOD. -/
theorem Table.alarm_eq_true_iff {t : Table} : t.alarm = true ↔ ∃ x ∈ t.dies, x.health ≠ .good := by
  unfold Table.alarm
  simp

theorem Table.alarm_eq_false_iff {t : Table} : t.alarm = false ↔ ∀ x ∈ t.dies, x.health = .good := by
  unfold Table.alarm
  simp

/-- 10.2: each health has a code of its own. -/
theorem healthCode_inj {a b : Health} : healthCode (some a) = healthCode (some b) ↔ a = b := by cases a <;> cases b <;> decide

theorem flag_inj {a b : Bool} : flag a = flag b ↔ a = b := by cases a <;> cases b <;> decide

theorem State.worstHealth_of_table {s : State} {t : Table} (ht : s.table = some t) : s.worstHealth = some t.worstHealth := by
  unfold State.worstHealth; rw [ht]; rfl

theorem State.alarm_of_table {s : State} {t : Table} (ht : s.table = some t) : s.alarm = t.alarm := by
  unfold State.alarm; rw [ht]; rfl

/-- R183: without a table no die has a health, and the summary is clear. -/
theorem State.worstHealth_of_no_table {s : State} (ht : s.table = none) : s.worstHealth = none := by
  unfold State.worstHealth; rw [ht]; rfl

theorem State.alarm_of_no_table {s : State} (ht : s.table = none) : s.alarm = false := by
  unfold State.alarm; rw [ht]; rfl

/-! ### The three commands (R177, R181, R183) -/

theorem exec_identify_eq (s : State) : exec .identify s = .next (s.command fun s => ⟨s, .ok, identifyPayload⟩) := rfl

theorem exec_getStatus_eq (s : State) : exec .getStatus s = .next (s.command fun s => ⟨s, .ok, s.statusPayload⟩) := rfl

theorem exec_ackAttn_eq (causes : Byte) (s : State) : exec (.ackAttn causes) s = .next (s.command fun s => s.ackAttn causes) := rfl

/-- R181: ACK_ATTN's rule once taken: bits that name no cause are refused, and the named causes leave the pending set. -/
theorem State.ackAttn_take (s : State) (causes : Byte) :
    (s.ackAttn causes).take = if causes.toNat < 32 then
        ({ s with attention := s.attention &&& ~~~causes.setWidth 5 }).responded .ok
          [(s.attention &&& ~~~causes.setWidth 5).setWidth 8]
      else s.responded .badArg [] := by
  unfold State.ackAttn
  rw [causesOfByte_eq]
  split_ifs with named
  · rw [← causeByte_eq_setWidth]; rfl
  · rfl

/-- Settles O9: IDENTIFY's rule has no busy check and leaves the state it is given; its payload is 10.2's bytes. -/
theorem identifyAnswersTheFixedValues : Obligations.IdentifyAnswersTheFixedValues := by
  unfold Obligations.IdentifyAnswersTheFixedValues
  intro s taken
  have payload : identifyPayload
      = [0x40#8, 0x06#8, 0x42#8, 0x53#8, 1#8, 4#8, 8#8, 0x00#8, 0x04#8, 0x00#8, 0x20#8, 64#8, 1#8, 64#8] := by decide
  rw [exec_identify_eq, State.command_taken taken, payload]

/-- Settles O10: the worst health and the summary are the codes of the state's own, which the dies of the table determine. -/
theorem getStatusAnswersTheWholePart : Obligations.GetStatusAnswersTheWholePart := by
  unfold Obligations.GetStatusAnswersTheWholePart
  intro s taken
  refine ⟨healthCode s.worstHealth, flag s.alarm, ?response, fun ht => ?noTable, fun t ht => ?dies⟩
  case response =>
    rw [exec_getStatus_eq, State.command_taken taken]
    rfl
  case noTable =>
    rw [State.worstHealth_of_no_table ht, State.alarm_of_no_table ht]
    exact ⟨rfl, rfl⟩
  case dies =>
    rw [State.worstHealth_of_table ht, State.alarm_of_table ht]
    exact ⟨healthCode_inj.trans Table.worstHealth_eq_exhausted_iff, healthCode_inj.trans Table.worstHealth_eq_low_iff,
      healthCode_inj.trans Table.worstHealth_eq_good_iff, flag_inj.trans Table.alarm_eq_true_iff,
      flag_inj.trans Table.alarm_eq_false_iff⟩

/-- Settles O11: ACK_ATTN has no busy check, so in phase COMMAND its own rule answers, and the line follows the set and the mask. -/
theorem ackAttnClearsTheNamedCauses : Obligations.AckAttnClearsTheNamedCauses := by
  unfold Obligations.AckAttnClearsTheNamedCauses
  refine ⟨fun causes s taken => ?_, fun s => State.attnLine_iff⟩
  rw [exec_ackAttn_eq, State.command_taken taken, ← Reply.take_eq, State.ackAttn_take]

end Sys2Proof.Machine
end
